-- ==== Sys2Proof/Word.lean ====
section
/-! DEFINITION. The words that cross the part's two kinds of bus, and the numbers of the things it supervises. -/

namespace Sys2Proof

/-- One byte of a manager message or of a Station Link frame (R162). -/
abbrev Byte := BitVec 8

/-- A two-byte field (R162), and every 16-bit count of the part that wraps. -/
abbrev Half := BitVec 16

/-- A tray position, 0 to 31 (R1). -/
abbrev TrayId := Fin 32

/-- A cooling zone, 0 to 7 (R91). -/
abbrev ZoneId := Fin 8

/-- An inrush slot, 0 to 3 (R63). -/
abbrev SlotId := Fin 4

/-- A station address: trays 0 to 31, rectifiers 32 to 37, battery modules 38 to 41 (R106). -/
abbrev StationId := Fin 42

/-- An analog channel: 0 is BUS, 1 to 8 are LEAK0 to LEAK7 (R121). -/
abbrev ChannelId := Fin 9

end Sys2Proof
end

