-- ==== Sys2Proof/Syntax.lean ====
section
/-! DEFINITION. The commands of the block: one constructor for each row of spec/opcode_table.json. -/

namespace Sys2Proof

/-- A manager port (R130). -/
inductive Port where
  | a
  | b
  deriving DecidableEq, Repr

/-- The ten configurable fields of SET_TRAY as its payload carries them (R163). -/
structure TrayFields where
  cls : Byte
  zone : Byte
  inrush : Half
  standing : Half
  cap : Half
  window : Byte
  tries : Byte
  flags : Byte
  deriving DecidableEq, Repr

/-- The settings of SET_LIMITS as its payload carries them (R142, R163). -/
structure LimitFields where
  wet : Half
  openFloor : Half
  confirm : Byte
  enabled : Byte
  openAsLeak : Byte
  warnLimit : Half
  overLimit : Half
  cutoff : Half
  deriving DecidableEq, Repr

/-- The settings of SET_TIMING as its payload carries them (R142, R163). -/
structure TimingFields where
  mode : Byte
  interval : Half
  k : Byte
  w0 : Half
  w1 : Half
  w2 : Half
  s1 : Half
  s2 : Half
  s3 : Half
  qualification : Half
  reply : Byte
  census : Half
  deriving DecidableEq, Repr

/-- A command of the block. A request stands for a write whose frame passes steps 1 to 3 of R134: it names its
port, its tag, and its parameters at their widths on the wire (R163). -/
inductive Instr where
  | readStatus (p : Port) (tag part : Byte)
  | readTray (p : Port) (tag tray : Byte)
  | readStation (p : Port) (tag address : Byte)
  | readZone (p : Port) (tag zone : Byte)
  | readPlan (p : Port) (tag part : Byte)
  | readSnapshot (p : Port) (tag part : Byte)
  | readJournal (p : Port) (tag : Byte)
  | readAlerts (p : Port) (tag : Byte)
  | setAlerts (p : Port) (tag : Byte) (enable urgent : Half)
  | ackAlerts (p : Port) (tag : Byte) (mask : Half)
  | claimLease (p : Port) (tag : Byte) (term : Half)
  | renewLease (p : Port) (tag : Byte)
  | dropLease (p : Port) (tag : Byte)
  | grant (p : Port) (tag tray : Byte) (amount : Half) (rev park : Byte)
  | release (p : Port) (tag tray rev : Byte)
  | setTray (p : Port) (tag tray rev : Byte) (f : TrayFields)
  | clearFault (p : Port) (tag tray rev : Byte)
  | planOpen (p : Port) (tag rev : Byte)
  | planPoint (p : Port) (tag position : Byte)
  | planPut (p : Port) (tag tray : Byte)
  | planLength (p : Port) (tag length : Byte)
  | planCommit (p : Port) (tag : Byte)
  | planAbort (p : Port) (tag : Byte)
  | setShelf (p : Port) (tag redundancy autoRestart : Byte)
  | setLimits (p : Port) (tag : Byte) (f : LimitFields)
  | setTiming (p : Port) (tag : Byte) (f : TimingFields)
  | startRack (p : Port) (tag : Byte)
  | clearZone (p : Port) (tag zone : Byte)
  | clearTrap (p : Port) (tag : Byte)
  | saveConfig (p : Port) (tag : Byte)
  /-- A write whose bytes fail the frame check or name no command (R134); the bytes as written. -/
  | unknownRequest (p : Port) (bytes : List Byte)
  | writeRefusedExecuting (p : Port)
  | storeWriteComplete
  | leaseLapsed (p : Port)
  /-- A complete frame whose reception began after the outstanding poll was sent (R109); its bytes. -/
  | replyFrame (bytes : List Byte)
  /-- A frame that belongs to no outstanding poll (R109); its bytes. -/
  | strayFrame (bytes : List Byte)
  | replyTimeout
  | paceExpiry
  | windowExpiry (slot : SlotId)
  | pfailAsserted
  | pfailDeasserted
  | qualificationExpiry
  | stageTick
  /-- The end of a conversion of a channel: a valid result, or none for an overrange result (R121). -/
  | conversion (channel : ChannelId) (result : Option Half)
  | censusClose
  | vstbyRise
  | vcoreFall
  | vcoreRecovery
  | startDelayExpiry
  | resetNAsserted
  | resetNDeasserted
  | vstbyFall
  deriving DecidableEq, Repr

end Sys2Proof
end

