-- ==== Sys2Proof/Decode.lean ====
section
/-! DEFINITION. The words of the opcode table: no row of spec/opcode_table.json gives any bits, so no word spells a
command. -/

namespace Sys2Proof

/-- The command that a word spells by the table's bits: none, for no row gives bits. -/
def decodeTableWord (_nbits _w : Nat) : Option Instr := none

end Sys2Proof
end

