-- ==== Sys2Proof/Config.lean ====
section
/-! DEFINITION. The constants that the spec fixes for the part, and the free values that it leaves open. -/

namespace Sys2Proof.Config

/-- The start delay of the Supply Monitor, 64 ms (R154). -/
def startDelayMs : Nat := 64

/-- The stage tick, a recurring timer of 100 ms (R76). -/
def stageTickMs : Nat := 100

/-- The journal is one ring of 48 entries (R149, R151). -/
def journalSize : Nat := 48

/-- FREE VALUE (log entry 26). READ_STATION returns the station's kind (R119); no rule codes it.
The argument is 0 for a tray, 1 for a rectifier and 2 for a battery module. -/
opaque stationKindCode : Nat → Byte

/-- FREE VALUE (log entry 16). Which of several zones in LEAK the ISOLATE entry names when a lock isolates a
tray (R18, R99); the argument counts the values drawn so far. -/
opaque freeLeakZone : Nat → Nat

end Sys2Proof.Config
end

