-- ==== Sys2Proof/Machine/State.lean ====
section
/-! DEFINITION. Every piece of state the spec gives the part, as plain data, and the machine right after reset.
Names follow the spec; INVENTORY.md lists each field with its rule and its reset value. -/

namespace Sys2Proof.Machine

/-- No rule of the spec stops the part: every command has an effect in every state, so nothing raises a fault.
Safe: the type has no constructor. -/
inductive Fault where
  deriving DecidableEq, Repr

/-- The reasons for which a command has no meaning. -/
inductive Refusal where
  /-- Raised by exec's arm of a command that this model gives no meaning yet; no arm does. Safe. -/
  | notModelled (mnemonic : String)
  deriving DecidableEq, Repr

/-! ### The Tray Table (chapter 1) -/

/-- The seven tray states (R3). -/
inductive TrayState where
  | idle | queued | inrush | run | parked | isolated | faulted
  deriving DecidableEq, Repr

/-- Why a tray is FAULTED (R2). -/
inductive FaultCause where
  | start | reported
  deriving DecidableEq, Repr

/-- What the test of a stored check code finds (R17, R20). No rule gives the code's function or returns its value,
so the model keeps the verdict (log entry 1). -/
inductive CheckCode where
  | matching | failing
  deriving DecidableEq, Repr

/-- The configuration part of a tray record less its check code (R1). -/
structure TrayConfig where
  cls : Fin 4
  zone : Option ZoneId
  inrush : Nat
  standing : Nat
  cap : Nat
  window : Fin 4
  tries : Nat
  selfRequest : Bool
  selfStart : Bool
  unattended : Bool
  deriving DecidableEq, Repr

/-- The defaults of R1. -/
def TrayConfig.default : TrayConfig :=
  { cls := 0, zone := none, inrush := 0, standing := 0, cap := 0, window := 0, tries := 1,
    selfRequest := false, selfStart := false, unattended := false }

/-- A tray record: the configuration part with its check code, and the dynamic part (R1, R2). -/
structure Tray where
  cfg : TrayConfig
  code : CheckCode
  state : TrayState
  grant : Nat
  commitment : Nat
  revision : Byte
  triesLeft : Nat
  faultCause : Option FaultCause
  adopted : Bool
  deferred : Bool
  overCap : Bool
  locked : Bool
  /-- The commitment that the lock froze (R4, R21); used only while locked. -/
  frozen : Nat
  deriving DecidableEq, Repr

/-- A record with the given configuration part and the dynamic part of R2 after POWER_ON. -/
def Tray.fresh (cfg : TrayConfig) (code : CheckCode) : Tray :=
  { cfg := cfg, code := code, state := .idle, grant := 0, commitment := 0, revision := 0, triesLeft := cfg.tries,
    faultCause := none, adopted := false, deferred := false, overCap := false, locked := false, frozen := 0 }

/-- What the integrity trap has latched (R19). -/
inductive TrapSource where
  | tray (t : TrayId)
  | plan (position : Nat)
  deriving DecidableEq, Repr

/-- The integrity trap (R19). -/
structure Trap where
  latched : Option TrapSource
  more : Bool
  deriving DecidableEq, Repr

/-! ### The Budget Account (chapter 2) -/

/-- The account mode (R26, R31). -/
inductive AccountMode where
  | settled | recovering
  deriving DecidableEq, Repr

/-- The Budget Account and the two shelf settings (R26, R35). Headroom is computed from it. -/
structure Account where
  shelf : Nat
  battery : Nat
  usable : Nat
  committed : Nat
  mode : AccountMode
  redundancy : Bool
  autoRestart : Bool
  deriving DecidableEq, Repr

/-! ### The Power-Up Sequencer (chapter 3) -/

/-- One entry of the active Start Plan (R20, R53). -/
structure PlanEntry where
  tray : TrayId
  code : CheckCode
  reported : Bool
  deriving DecidableEq, Repr

/-- One position of the staging copy: a tray number or empty, with its bad mark (R52). -/
structure StagePos where
  tray : Option TrayId
  bad : Bool
  deriving DecidableEq, Repr

/-- The staging copy (R52). -/
structure Staging where
  positions : Vector StagePos 32
  length : Nat
  pointer : TrayId
  holder : Option Port
  deriving DecidableEq, Repr

/-- The pace mode (R62). -/
inductive PaceMode where
  | gap | cadence
  deriving DecidableEq, Repr

/-- The latest report of a window (R67). -/
inductive Report where
  | none | good | notGood
  deriving DecidableEq, Repr

/-- An occupied inrush slot: its tray with the window record (R63, R67), the window's remaining time, and the number
of the start that armed it (R108). -/
structure Slot where
  tray : TrayId
  window : Fin 4
  length : Nat
  report : Report
  remaining : Nat
  start : Nat
  deriving DecidableEq, Repr

/-- The Power-Up Sequencer (R52). -/
structure Sequencer where
  plan : List PlanEntry
  planRev : Byte
  keys : Vector Nat 32
  staging : Staging
  autoDue : Bool
  /-- The round under way began after the automatic run due mark was set (R61, R107). -/
  autoBegun : Bool
  paceMode : PaceMode
  paceInterval : Nat
  paceTimer : Option Nat
  k : Nat
  w0 : Nat
  w1 : Nat
  w2 : Nat
  slots : Vector (Option Slot) 4
  /-- How many starts have been taken since reset: the identity of the next window (R108). -/
  starts : Nat
  deriving DecidableEq, Repr

/-! ### The Holdup Controller (chapter 4) -/

/-- The holdup states (R73). -/
inductive HoldupState where
  | normal | holdup | regain | dark
  deriving DecidableEq, Repr

/-- The stages of an episode (R73, R78). -/
inductive Stage where
  | one | two | three | overrun
  deriving DecidableEq, Repr

/-- The holdup record, its two timers and its settings (R73, R74). -/
structure Holdup where
  state : HoldupState
  cold : Bool
  qualified : Bool
  stage : Option Stage
  timer : Int
  total : Nat
  /-- The boundary of stage 1, S2+S3, kept with the episode total (R78). -/
  bound1 : Nat
  /-- The boundary of stage 2, S3, kept with the episode total (R78). -/
  bound2 : Nat
  stageTick : Option Nat
  qualTimer : Option Nat
  lastElapsed : Nat
  episodes : Half
  s1 : Nat
  s2 : Nat
  s3 : Nat
  qualification : Nat
  cutoff : Nat
  deriving DecidableEq, Repr

/-! ### The Leak Monitor (chapter 5) -/

/-- The zone states (R91). -/
inductive ZoneState where
  | dry | suspect | leak | opened
  deriving DecidableEq, Repr

/-- A zone's classification at a close (R94). -/
inductive ZoneClass where
  | dry | wet | opened
  deriving DecidableEq, Repr

/-- A zone record less its two latches, which are in the hold domain (R91). -/
structure Zone where
  state : ZoneState
  wetCount : Nat
  lastClass : Option ZoneClass
  enabled : Bool
  openAsLeak : Bool
  deriving DecidableEq, Repr

/-- The Leak Monitor (R91, R92, R93). -/
structure Leak where
  zones : Vector Zone 8
  reporting : Vector Bool 32
  wet : Nat
  openFloor : Nat
  confirm : Nat
  deriving DecidableEq, Repr

/-! ### The Station Link controller (chapter 6) -/

/-- A station's presence (R106). -/
inductive Presence where
  | absent | present | silent
  deriving DecidableEq, Repr

/-- The fields of a station's last valid reply, by the station's kind (R106). -/
inductive Reply where
  | tray (powerGood fault localLeak : Bool) (demand : Nat)
  | rectifier (outputOk acOk : Bool) (rating : Nat)
  | battery (ready low : Bool) (charge rating : Nat)
  deriving DecidableEq, Repr

/-- A station record (R106). -/
structure Station where
  presence : Presence
  misses : Nat
  replied : Bool
  last : Option Reply
  /-- The state code and the grant that the latest poll of a tray carried. -/
  lastPoll : Option (TrayState × Nat)
  deriving DecidableEq, Repr

/-- The outstanding-poll record (R108): what the poll now awaiting its reply carried. -/
structure Poll where
  address : StationId
  sent : Option (TrayState × Nat)
  onBattery : Bool
  /-- The slot and the start of the window running when an INRUSH tray was polled. -/
  window : Option (SlotId × Nat)
  deriving DecidableEq, Repr

/-- The Station Link controller (R106 to R109). -/
structure Link where
  stations : Vector Station 42
  rounds : Half
  replyTimeout : Nat
  outstanding : Option Poll
  replyTimer : Option Nat
  deriving DecidableEq, Repr

/-! ### The Sense Scanner and the Census unit (chapter 7) -/

/-- One channel of a bank (R122). -/
structure Channel where
  minimum : Option Nat
  maximum : Option Nat
  samples : Nat
  overranges : Nat
  deriving DecidableEq, Repr

/-- The channel of an empty bank (R122). -/
def Channel.empty : Channel := { minimum := none, maximum := none, samples := 0, overranges := 0 }

/-- The values captured at a close (R125). -/
structure Captured where
  state : HoldupState
  cold : Bool
  stage : Option Stage
  timer : Int
  shelf : Nat
  battery : Nat
  usable : Nat
  committed : Nat
  mode : AccountMode
  deriving DecidableEq, Repr

/-- The published bank (R123). -/
structure Published where
  census : Half
  channels : Vector Channel 9
  classes : Vector (Option ZoneClass) 8
  captured : Option Captured
  deriving DecidableEq, Repr

/-- The Sense Scanner, the Census unit and the bus limit check (R121 to R127). -/
structure Sense where
  last : Vector (Option (Nat × Half)) 9
  filling : Vector Channel 9
  published : Published
  /-- Which of the banks 0 and 1 is filling (R123). -/
  fillingBank : Fin 2
  census : Half
  interval : Nat
  timer : Option Nat
  warnLimit : Nat
  overLimit : Nat
  low : Bool
  high : Bool
  deriving DecidableEq, Repr

/-! ### The manager ports, the alerts and the journal (chapters 8 and 9) -/

/-- The port states (R130). -/
inductive PortState where
  | idle | executing | ready
  deriving DecidableEq, Repr

/-- The statuses of a response (R135). -/
inductive Status where
  | ok | notReady | noResponse | badFrame | unknown | range | noLease | stale | state | noHeadroom | locked
  | holdupState | recovering | stagingHeld | duplicate | storeBusy
  deriving DecidableEq, Repr

/-- A response message less its length byte and CRC-8, which are computed from it (R135). -/
structure Response where
  status : Status
  tag : Byte
  payload : List Byte
  deriving DecidableEq, Repr

/-- A live lease: its term in seconds and its timer's remaining ms (R130). -/
structure Lease where
  term : Nat
  remaining : Nat
  deriving DecidableEq, Repr

/-- A port record with its alert record and journal cursor (R130, R145, R150). -/
structure PortRec where
  state : PortState
  response : Option Response
  execTag : Option Byte
  lease : Option Lease
  flags : Half
  released : Half
  enable : Half
  urgent : Half
  /-- How many entries of the ring the port has not been given: the cursor, counted from the ring's end (R150). -/
  unread : Nat
  gap : Bool
  deriving DecidableEq, Repr

/-- The port record after every reset (R130, R145, R150). -/
def PortRec.fresh : PortRec :=
  { state := .idle, response := none, execTag := none, lease := none, flags := 0, released := 0, enable := 0,
    urgent := 0, unread := 0, gap := false }

/-- The sixteen alert causes, in the order of the table of R144. -/
inductive Alert where
  | holdup | normalBack | dark | stageShed | shortfallShed | overrun | leak | suspectOrOpen | startFail | trayFault
  | stationSilent | capacity | integrity | leaseLapsed | busLimit | portOverrun
  deriving DecidableEq, Repr

/-- The journal kinds, in the order of the kinds table of R149. -/
inductive Kind where
  | integrity | trayFault | recovered | capacity | grant | release | selfGrant | overCap | selfStart | shortfallShed
  | admitted | planOpen | planCommit | planDiscard | planSkip | planRun | start | started | startFail | holdup
  | holdupPark | stageShed | stageEnd | overrun | regain | qualified | normalBack | dark | trayLeak | zoneSuspect
  | zoneOpen | zoneDry | leak | isolate | zoneClear | stationFound | stationLost | stationSilent | busLimit | lease
  | leaseLapsed | settings
  deriving DecidableEq, Repr

/-- The subject of a journal entry (R149). -/
inductive Subject where
  | tray (t : TrayId)
  | zone (z : ZoneId)
  | station (a : StationId)
  | port (p : Port)
  | position (n : Nat)
  deriving DecidableEq, Repr

/-- A journal entry (R149). The reason is its code (R166). -/
structure Entry where
  seq : Half
  census : Half
  kind : Kind
  subject : Option Subject
  value : Option Nat
  reason : Option Nat
  deriving DecidableEq, Repr

/-- The journal: the ring, oldest entry first, and the next sequence number (R149). -/
structure Journal where
  entries : List Entry
  next : Half
  deriving DecidableEq, Repr

/-! ### The Configuration Store, the hold domain and the Supply Monitor (chapter 10) -/

/-- A configuration image whose image check passes (R157). -/
structure Image where
  trays : Vector (TrayConfig × CheckCode) 32
  plan : List (TrayId × CheckCode)
  interval : Nat
  paceMode : PaceMode
  paceInterval : Nat
  k : Nat
  w0 : Nat
  w1 : Nat
  w2 : Nat
  qualification : Nat
  s1 : Nat
  s2 : Nat
  s3 : Nat
  replyTimeout : Nat
  redundancy : Bool
  autoRestart : Bool
  wet : Nat
  openFloor : Nat
  confirm : Nat
  /-- Channel enabled and open_as_leak of each zone. -/
  zones : Vector (Bool × Bool) 8
  warnLimit : Nat
  overLimit : Nat
  cutoff : Nat
  enableA : Half
  urgentA : Half
  enableB : Half
  urgentB : Half
  deriving DecidableEq, Repr

/-- The image of the defaults, the table of R157. -/
def Image.default : Image :=
  { trays := Vector.replicate 32 (TrayConfig.default, .matching), plan := [], interval := 100, paceMode := .gap,
    paceInterval := 2000, k := 1, w0 := 500, w1 := 2000, w2 := 5000, qualification := 3000, s1 := 50, s2 := 300,
    s3 := 1800, replyTimeout := 4, redundancy := true, autoRestart := false, wet := 300, openFloor := 8, confirm := 3,
    zones := Vector.replicate 8 (true, false), warnLimit := 4600, overLimit := 5800, cutoff := 4000, enableA := 0, urgentA := 0,
    enableB := 0, urgentB := 0 }

/-- A store write in progress: whose it is, what it writes, and what its response will carry (R136, R158). -/
structure StoreWrite where
  port : Port
  image : Image
  census : Half
  failing : Nat
  deriving DecidableEq, Repr

/-- The Configuration Store. An image that fails its image check is `none`: no field of it is ever used (R157). -/
structure Store where
  image : Option Image
  writing : Option StoreWrite
  deriving DecidableEq, Repr

/-- The cause of the reset cause record: POWER_ON, or a set of SUPPLY_DIP and RESET_PIN (R156). -/
inductive ResetCause where
  | powerOn
  | warm (dip pin : Bool)
  deriving DecidableEq, Repr

/-- The store result (R156, R157). -/
inductive StoreResult where
  | loaded | defaults
  deriving DecidableEq, Repr

/-- The hold domain (R152, R156). -/
structure Hold where
  enable : Vector Bool 32
  /-- The valve latch of each zone: set is closed. -/
  closed : Vector Bool 8
  leakLatch : Vector Bool 8
  cause : ResetCause
  adopted : Nat
  restored : Nat
  result : StoreResult
  deriving DecidableEq, Repr

/-- The hold domain when VSTBY rises (R152): the record holds POWER_ON, and until the reset ends its counts are 0 and its store
result LOADED (log entry 49). -/
def Hold.fresh : Hold :=
  { enable := Vector.replicate 32 false, closed := Vector.replicate 8 false, leakLatch := Vector.replicate 8 false,
    cause := .powerOn, adopted := 0, restored := 0, result := .loaded }

/-- The Supply Monitor, the two supplies, the RESET_N and PFAIL_N pins (R152 to R155). -/
structure Supply where
  vstby : Bool
  vcore : Bool
  resetAsserted : Bool
  pfailAsserted : Bool
  /-- The core is held in reset. -/
  held : Bool
  startDelay : Option Nat
  deriving DecidableEq, Repr

/-! ### The whole part -/

/-- What the event now being taken still owes at its end. The model's own; empty between commands (log entry 12). -/
structure Agenda where
  /-- An admission pass is due at the end of the claim (R49). -/
  admission : Bool
  /-- The claim has run a shortfall pass, so no admission pass follows it (R47). -/
  shortfall : Bool
  /-- The claim lowered committed: the notice of R84 is due. -/
  fell : Bool
  /-- A start opportunity has been reported (R64). -/
  opportunity : Bool
  deriving DecidableEq, Repr

/-- Nothing owed. -/
def Agenda.none : Agenda := { admission := false, shortfall := false, fell := false, opportunity := false }

/-- The state of the part. -/
structure State where
  pending : List Instr
  trays : Vector Tray 32
  queue : List TrayId
  park : List TrayId
  trap : Trap
  acct : Account
  seq : Sequencer
  hup : Holdup
  leak : Leak
  link : Link
  sense : Sense
  portA : PortRec
  portB : PortRec
  journal : Journal
  store : Store
  hold : Hold
  sup : Supply
  agenda : Agenda
  draws : Nat
  deriving DecidableEq, Repr

/-- A station record after every reset (R106). -/
def Station.fresh : Station :=
  { presence := .absent, misses := 0, replied := false, last := none, lastPoll := none }

/-- The staging after every reset (R52). -/
def Staging.fresh : Staging :=
  { positions := Vector.replicate 32 { tray := none, bad := false }, length := 0, pointer := 0, holder := none }

/-- The order keys of an empty plan (R9). -/
def freshKeys : Vector Nat 32 := Vector.ofFn fun t => 32 + t.val

/-- The core with every record at its value after every reset and every setting at its default, no timer running and
no poll sent, beside the given queue, store, hold domain, supply monitor and count of drawn values. -/
def State.fresh (pending : List Instr) (store : Store) (hold : Hold) (sup : Supply) (draws : Nat) : State where
  pending := pending
  trays := Vector.replicate 32 (Tray.fresh .default .matching)
  queue := []
  park := []
  trap := { latched := none, more := false }
  acct := { shelf := 0, battery := 0, usable := 0, committed := 0, mode := .settled, redundancy := true,
            autoRestart := false }
  seq := { plan := [], planRev := 0, keys := freshKeys, staging := .fresh, autoDue := false, autoBegun := false,
           paceMode := .gap, paceInterval := 2000, paceTimer := none, k := 1, w0 := 500, w1 := 2000, w2 := 5000,
           slots := Vector.replicate 4 none, starts := 0 }
  hup := { state := .dark, cold := false, qualified := false, stage := none, timer := 0, total := 0, bound1 := 0,
           bound2 := 0, stageTick := none, qualTimer := none, lastElapsed := 0, episodes := 0, s1 := 50, s2 := 300,
           s3 := 1800, qualification := 3000, cutoff := 4000 }
  leak := { zones := Vector.replicate 8 { state := .dry, wetCount := 0, lastClass := none, enabled := true,
                                          openAsLeak := false },
            reporting := Vector.replicate 32 false, wet := 300, openFloor := 8, confirm := 3 }
  link := { stations := Vector.replicate 42 .fresh, rounds := 0, replyTimeout := 4, outstanding := none,
            replyTimer := none }
  sense := { last := Vector.replicate 9 none, filling := Vector.replicate 9 .empty,
             published := { census := 0, channels := Vector.replicate 9 .empty, classes := Vector.replicate 8 none,
                            captured := none },
             fillingBank := 0, census := 0, interval := 100, timer := none, warnLimit := 4600, overLimit := 5800, low := false,
             high := false }
  portA := .fresh
  portB := .fresh
  journal := { entries := [], next := 0 }
  store := store
  hold := hold
  sup := sup
  agenda := .none
  draws := draws

/-- The machine right after reset: the end of a POWER_ON with PFAIL_N deasserted (R153; log entries 2 and 3). The
holdup state is cold REGAIN with the qualification timer running (R73), the first round has begun with the poll of
address 32 (R107), and the census timer runs (R124). -/
def State.reset : State :=
  let s := State.fresh [] { image := none, writing := none } { Hold.fresh with result := .defaults }
    { vstby := true, vcore := true, resetAsserted := false, pfailAsserted := false, held := false,
      startDelay := none } 0
  { s with
    hup := { s.hup with state := .regain, cold := true, qualTimer := some 3000 }
    link := { s.link with
      outstanding := some { address := 32, sent := none, onBattery := false, window := none }
      replyTimer := some 4 }
    sense := { s.sense with timer := some 100 } }

end Sys2Proof.Machine
end

