-- ==== Sys2Proof/Machine/Formats.lean ====
section
/-! DEFINITION. Chapter 12: byte order, the two checks, the code values, and the frames of both buses. -/

namespace Sys2Proof.Machine

/-! ### Fields (R162) -/

/-- The low and the high byte of a two-byte field, in the order sent (R162). -/
def bytes2 (w : Half) : List Byte := [w.extractLsb' 0 8, w.extractLsb' 8 8]

/-- The two-byte field of a low and a high byte (R162). -/
def half (lo hi : Byte) : Half := hi ++ lo

/-- A number in one byte. -/
def byte (n : Nat) : Byte := BitVec.ofNat 8 n

/-- A number in two bytes, least significant first (R162). -/
def nat2 (n : Nat) : List Byte := bytes2 (BitVec.ofNat 16 n)

/-- A number in three bytes, least significant first: a sum (R162). -/
def nat3 (n : Nat) : List Byte := [byte n, byte (n / 256), byte (n / 65536)]

/-- Two 12-bit numbers in three bytes, the first in the low twelve bits; a count above 4095 is sent as 4095 (R162,
R165). -/
def packed (a b : Nat) : List Byte := nat3 (min a 4095 + 4096 * min b 4095)

/-- A signed field of two bytes, two's complement (R162). -/
def int2 (i : Int) : List Byte := bytes2 (BitVec.ofInt 16 i)

/-- A flag in one byte: 0 or 1 (R162). -/
def flag (b : Bool) : Byte := if b then 1 else 0

/-- A group of flags named together: one bit each from bit 0 up (R165). -/
def flagBits : List Bool → Nat
  | [] => 0
  | b :: bs => (if b then 1 else 0) + 2 * flagBits bs

/-- A group of at most eight flags in one byte (R165). -/
def flags (bs : List Bool) : Byte := byte (flagBits bs)

/-- A byte field that may be absent: 0xFF when absent (R162). -/
def optByte : Option Byte → Byte
  | some b => b
  | none => 0xFF

/-- A two-byte field that may be absent: 0xFFFF when absent (R162). -/
def optNat2 : Option Nat → List Byte
  | some n => nat2 n
  | none => [0xFF, 0xFF]

/-! ### The checks (R163, R164) -/

/-- One bit of the CRC-8 with generator x⁸ + x² + x + 1, most significant bit first (R163). -/
def crc8Bit (c : Byte) : Byte := if c.msb then (c <<< 1) ^^^ 0x07 else c <<< 1

/-- One byte of the CRC-8. -/
def crc8Byte (c b : Byte) : Byte :=
  crc8Bit (crc8Bit (crc8Bit (crc8Bit (crc8Bit (crc8Bit (crc8Bit (crc8Bit (c ^^^ b))))))))

/-- The CRC-8 of a message's bytes: initial value 0x00, no final inversion (R163). -/
def crc8 (bs : List Byte) : Byte := bs.foldl crc8Byte 0

/-- One bit of the CRC-16 with generator x¹⁶ + x¹² + x⁵ + 1, most significant bit first (R164; log entry 58). -/
def crc16Bit (c : Half) : Half := if c.msb then (c <<< 1) ^^^ 0x1021 else c <<< 1

/-- One byte of the CRC-16. -/
def crc16Byte (c : Half) (b : Byte) : Half :=
  crc16Bit (crc16Bit (crc16Bit (crc16Bit (crc16Bit (crc16Bit (crc16Bit (crc16Bit (c ^^^ (b ++ (0 : Byte))))))))))

/-- The CRC-16 of a frame's bytes: initial value 0xFFFF, no final inversion (R164). -/
def crc16 (bs : List Byte) : Half := bs.foldl crc16Byte 0xFFFF

/-- A frame with its check, sent most significant byte first (R164). -/
def withCrc16 (bs : List Byte) : List Byte :=
  bs ++ [(crc16 bs).extractLsb' 8 8, (crc16 bs).extractLsb' 0 8]

/-! ### Code values (R166) -/

def TrayState.code : TrayState → Nat
  | .idle => 0 | .queued => 1 | .inrush => 2 | .run => 3 | .parked => 4 | .isolated => 5 | .faulted => 6

def HoldupState.code : HoldupState → Nat
  | .normal => 0 | .holdup => 1 | .regain => 2 | .dark => 3

def Stage.code : Option Stage → Nat
  | none => 0 | some .one => 1 | some .two => 2 | some .three => 3 | some .overrun => 4

def ZoneState.code : ZoneState → Nat
  | .dry => 0 | .suspect => 1 | .leak => 2 | .opened => 3

/-- The codes of READ_SNAPSHOT part 0 (R165). -/
def ZoneClass.code : ZoneClass → Nat
  | .dry => 0 | .wet => 1 | .opened => 2

def Presence.code : Presence → Nat
  | .absent => 0 | .present => 1 | .silent => 2

def AccountMode.code : AccountMode → Nat
  | .settled => 0 | .recovering => 1

def Report.code : Report → Nat
  | .none => 0 | .good => 1 | .notGood => 2

def PaceMode.code : PaceMode → Nat
  | .gap => 0 | .cadence => 1

def FaultCause.code : FaultCause → Nat
  | .start => 0 | .reported => 1

def StoreResult.code : StoreResult → Nat
  | .loaded => 0 | .defaults => 1

def portCode : Port → Nat
  | .a => 0 | .b => 1

def PortState.code : PortState → Nat
  | .idle => 0 | .executing => 1 | .ready => 2

/-- The staging holder's code (R165). -/
def holderCode : Option Port → Nat
  | none => 0 | some .a => 1 | some .b => 2

def Status.code : Status → Nat
  | .ok => 0 | .notReady => 1 | .noResponse => 2 | .badFrame => 3 | .unknown => 4 | .range => 5 | .noLease => 6
  | .stale => 7 | .state => 8 | .noHeadroom => 9 | .locked => 10 | .holdupState => 11 | .recovering => 12
  | .stagingHeld => 13 | .duplicate => 14 | .storeBusy => 15

/-- The mask and flag bit of an alert cause: its place in the table of R144 (R166). -/
def Alert.bit (c : Alert) : Nat := c.ctorIdx

/-- Journal kinds take codes 1 to 42 in the order of the kinds table (R166). -/
def Kind.code (k : Kind) : Nat := k.ctorIdx + 1

/-- The subject byte of a journal entry (R165). -/
def Subject.code : Subject → Nat
  | .tray t => t.val
  | .zone z => z.val
  | .station a => a.val
  | .port p => portCode p
  | .position n => n

/-- The reasons of the journal entries. -/
inductive Reason where
  /-- A number, or the code of a state, a presence, a port or a command (R166). -/
  | number (n : Nat)
  | superseded
  | rectifier | battery | redundancy
  | queued | parked | resized
  | set | cleared
  | withdrawn | shed
  | aborted | leaseEnded
  | badEntry | state | skipLocked | inLeak | station | noGrant | unattended
  | manual | automatic
  | retry | faulted
  | newEpisode | resumed
  | warm | cold
  | short
  | noBattery | busCutoff | batteryExhausted | acLost
  | noZone | leakLocked
  | rope | trayReport | ropeOpen
  | low | lowCleared | high | highCleared
  | claimed | dropped
  deriving DecidableEq, Repr

/-- Reason codes: named reasons from 0 upward in the order the rule that makes the entry first lists them (R166; log
entry 19 for the reasons whose names are also names of tray states, log entry 62 for the reasons that two rules give). -/
def Reason.code : Reason → Nat
  | .number n => n
  | .superseded => 0x7E
  | .rectifier => 0 | .battery => 1 | .redundancy => 2
  | .queued => 0 | .parked => 1 | .resized => 2
  | .set => 0 | .cleared => 1
  | .withdrawn => 0 | .shed => 1
  | .aborted => 0 | .leaseEnded => 1
  | .badEntry => 0 | .state => 1 | .skipLocked => 2 | .inLeak => 3 | .station => 4 | .noGrant => 5 | .unattended => 6
  | .manual => 0 | .automatic => 1
  | .retry => 0 | .faulted => 1
  | .newEpisode => 0 | .resumed => 1
  | .warm => 0 | .cold => 1
  | .short => 0
  | .noBattery => 0 | .busCutoff => 1 | .batteryExhausted => 2 | .acLost => 3
  | .noZone => 0 | .leakLocked => 1
  | .rope => 0 | .trayReport => 1 | .ropeOpen => 2
  | .low => 0 | .lowCleared => 1 | .high => 2 | .highCleared => 3
  | .claimed => 0 | .dropped => 1

/-- A journal entry as READ_JOURNAL sends it: nine bytes, the reason in bits 0 to 6 of the last and, in its bit 7,
whether the value is present (R165). -/
def Entry.bytes (e : Entry) : List Byte :=
  bytes2 e.seq ++ bytes2 e.census ++ [byte e.kind.code, optByte (e.subject.map fun s => byte s.code)]
    ++ optNat2 e.value ++ [byte (e.reason.getD 0x7F + if e.value.isSome then 128 else 0)]

/-! ### Manager messages (R133, R135, R163) -/

/-- The 7-bit target address at which a port answers on its bus (R163). -/
def portAddress : Port → BitVec 7
  | .a => 0x4A | .b => 0x4B

/-- The bytes of a response message: status, tag echo, length, payload, CRC-8 (R135, R163). -/
def Response.message (r : Response) : List Byte :=
  let body := [byte r.status.code, r.tag, byte r.payload.length] ++ r.payload
  body ++ [crc8 body]

/-- The message a read transaction returns, by the port state when its address is acknowledged (R133). -/
def PortRec.readMessage (r : PortRec) : List Byte :=
  match r.state, r.response with
  | .ready, some resp => resp.message
  | .executing, _ => Response.message { status := .notReady, tag := r.execTag.getD 0, payload := [] }
  | _, _ => Response.message { status := .noResponse, tag := 0, payload := [] }

/-- The bytes of a read transaction of the given length: each byte past the end of the message is 0xFF (R133). -/
def PortRec.readBytes (r : PortRec) (n : Nat) : List Byte :=
  r.readMessage.take n ++ List.replicate (n - r.readMessage.length) 0xFF

/-! ### Station Link frames (R164) -/

/-- The kinds of station (R106). -/
inductive StationKind where
  | tray | rectifier | battery
  deriving DecidableEq, Repr

/-- The kind of the station at an address (R106). -/
def stationKind (a : StationId) : StationKind :=
  if a.val < 32 then .tray else if a.val < 38 then .rectifier else .battery

/-- The frame of the outstanding poll as sent on the link (R108, R164). -/
def Poll.frame (q : Poll) : List Byte :=
  match stationKind q.address with
  | .tray =>
    let (st, g) := q.sent.getD (.idle, 0)
    withCrc16 ([byte q.address.val, 0x50, byte st.code] ++ nat2 g ++ [flag q.onBattery])
  | .rectifier => withCrc16 [byte q.address.val, 0x51, flag q.onBattery]
  | .battery => withCrc16 [byte q.address.val, 0x52, flag q.onBattery]

/-- The complete frame with which the given received bytes begin, once there is one: the type byte fixes its length,
and a type byte that names no reply type ends the frame at that byte (R164). -/
def completeFrame : List Byte → Option (List Byte)
  | ad :: ty :: rest =>
    let body := if ty = 0xA0 ∨ ty = 0xA1 then 5 else if ty = 0xA2 then 6 else 0
    if body ≤ rest.length then some (ad :: ty :: rest.take body) else none
  | _ => none

/-- The fields of a reply body of the polled station's kind, when each lies in its range (R106, R110, R164). -/
def replyFields (k : StationKind) (ty : Byte) (body : List Byte) : Option Reply :=
  match k, body with
  | .tray, [st, lo, hi] =>
    let demand := (half lo hi).toNat
    if ty = 0xA0 ∧ st.toNat < 8 ∧ demand ≤ 4095 then
      some (.tray (st.getLsbD 0) (st.getLsbD 1) (st.getLsbD 2) demand)
    else none
  | .rectifier, [st, lo, hi] =>
    let rating := (half lo hi).toNat
    if ty = 0xA1 ∧ st.toNat < 4 ∧ rating ≤ 4095 then some (.rectifier (st.getLsbD 0) (st.getLsbD 1) rating) else none
  | .battery, [st, charge, lo, hi] =>
    let rating := (half lo hi).toNat
    if ty = 0xA2 ∧ st.toNat < 4 ∧ charge.toNat ≤ 100 ∧ rating ≤ 4095 then
      some (.battery (st.getLsbD 0) (st.getLsbD 1) charge.toNat rating)
    else none
  | _, _ => none

/-- The reply that a complete frame carries from the polled station, or none when the frame is a bad reply (R110). -/
def validReply (a : StationId) (frame : List Byte) : Option Reply :=
  match frame with
  | ad :: ty :: rest =>
    let body := rest.take (rest.length - 2)
    if withCrc16 (ad :: ty :: body) = frame ∧ ad = byte a.val then replyFields (stationKind a) ty body else none
  | _ => none

/-- A station's last reply fields as READ_STATION returns them: the body of its reply frame, or the absent codes
(R162, R165). -/
def replyBody (k : StationKind) (r : Option Reply) : List Byte :=
  match r, k with
  | some (.tray pg f ll d), _ => [flags [pg, f, ll]] ++ nat2 d
  | some (.rectifier ok ac rating), _ => [flags [ok, ac]] ++ nat2 rating
  | some (.battery rd lw charge rating), _ => [flags [rd, lw], byte charge] ++ nat2 rating
  | none, .battery => [0xFF, 0xFF, 0xFF, 0xFF]
  | none, _ => [0xFF, 0xFF, 0xFF]

end Sys2Proof.Machine
end

