-- ==== Sys2Proof/Machine/Flags.lean ====
section
/-! DEFINITION. Chapter 9: the alert flags, their release, the alert line, and the journal ring with its cursors. -/

namespace Sys2Proof.Machine

/-! ### The two port records -/

/-- A port's record. -/
def State.port (s : State) : Port → PortRec
  | .a => s.portA
  | .b => s.portB

/-- The state with a port's record replaced. -/
def State.setPort (p : Port) (r : PortRec) (s : State) : State :=
  match p with
  | .a => { s with portA := r }
  | .b => { s with portB := r }

/-- Both port records changed alike. -/
def State.mapPorts (f : PortRec → PortRec) (s : State) : State :=
  { s with portA := f s.portA, portB := f s.portB }

/-! ### Alerts (R144 to R148) -/

/-- The mask with one alert cause's bit set. -/
def Alert.mask (c : Alert) : Half := BitVec.ofNat 16 (2 ^ c.bit)

/-- A flag is set; when its cause is urgent at this port its released mark is set too, and otherwise the mark is left as
it was (R146). -/
def PortRec.setFlag (c : Alert) (r : PortRec) : PortRec :=
  { r with flags := r.flags ||| c.mask, released := r.released ||| (c.mask &&& r.urgent) }

/-- At a census close every flag that is set and unreleased becomes released (R146). -/
def PortRec.releaseAll (r : PortRec) : PortRec := { r with released := r.released ||| r.flags }

/-- The two masks are replaced, and any flag that is now urgent, set and unreleased is released (R148). -/
def PortRec.setMasks (enable urgent : Half) (r : PortRec) : PortRec :=
  { r with enable := enable, urgent := urgent, released := r.released ||| (r.flags &&& urgent) }

/-- The flags named by the mask are cleared with their released marks (R148). -/
def PortRec.acknowledge (mask : Half) (r : PortRec) : PortRec :=
  { r with flags := r.flags &&& ~~~mask, released := r.released &&& ~~~mask }

/-- The alert line is asserted while some cause has its flag, its released mark and its enable bit set (R147). -/
def PortRec.lineAsserted (r : PortRec) : Bool := r.flags &&& r.released &&& r.enable != 0

/-- An alert cause is set in the records of both ports (R145). -/
def raise (c : Alert) (s : State) : State := s.mapPorts (PortRec.setFlag c)

/-- PORT_OVERRUN is set in the record of the port whose write was refused (R132, R145). -/
def raiseOverrun (p : Port) (s : State) : State := s.setPort p ((s.port p).setFlag .portOverrun)

/-! ### The journal (R149 to R151) -/

/-- What a new entry does to a port's cursor. In a full ring the oldest entry is dropped; a cursor that marks it moves
on and the gap flag is set (R151). Otherwise the unread count rises by one (R150). -/
def PortRec.entryMade (ringFull : Bool) (r : PortRec) : PortRec :=
  if ringFull && r.unread == Config.journalSize then { r with gap := true }
  else { r with unread := min (r.unread + 1) Config.journalSize }

/-- The ring with a new entry at its end, the oldest dropped first when the ring is full (R149, R151). -/
def Journal.push (j : Journal) (e : Entry) : Journal :=
  { entries := (if j.entries.length < Config.journalSize then j.entries else j.entries.drop 1) ++ [e],
    next := j.next + 1 }

/-- A journal entry is made: it takes the next sequence number and the census number of the published bank, and a value
above 65 535 is recorded as 65 535 (R149). -/
def journalise (k : Kind) (subject : Option Subject) (value : Option Nat) (reason : Option Reason) (s : State) : State :=
  let full := !(s.journal.entries.length < Config.journalSize : Bool)
  { s with
    journal := s.journal.push
      { seq := s.journal.next, census := s.sense.census, kind := k, subject := subject,
        value := value.map (min · 65535), reason := reason.map Reason.code }
    portA := s.portA.entryMade full
    portB := s.portB.entryMade full }

/-- The stage timer as the value of a journal entry: two's complement (R162; log entry 36). -/
def timerValue (i : Int) : Nat := (BitVec.ofInt 16 i).toNat

/-- The entries that a port has not been given, oldest first (R150). -/
def unreadEntries (p : Port) (s : State) : List Entry :=
  s.journal.entries.drop (s.journal.entries.length - (s.port p).unread)

end Sys2Proof.Machine
end

