-- ==== Sys2Proof/Machine/Operands.lean ====
section
/-! DEFINITION. The parameters of the requests: each byte or two-byte field as the thing it names, or none where a rule
refuses it with RANGE. -/

namespace Sys2Proof.Machine

/-- A tray number 0 to 31 (R141). -/
def trayOf (b : Byte) : Option TrayId := if h : b.toNat < 32 then some ⟨b.toNat, h⟩ else none

/-- A zone number 0 to 7 (R102, R104). -/
def zoneOf (b : Byte) : Option ZoneId := if h : b.toNat < 8 then some ⟨b.toNat, h⟩ else none

/-- A station address 0 to 41 (R119). -/
def stationOf (b : Byte) : Option StationId := if h : b.toNat < 42 then some ⟨b.toNat, h⟩ else none

/-- A zone parameter: 0 to 7, or 0x0F for NONE (R163). -/
def zoneParam (b : Byte) : Option (Option ZoneId) := if b = 0x0F then some none else (zoneOf b).map some

/-- A parameter byte coded as on/off (R163). -/
def onOff (b : Byte) : Option Bool := if b = 0 then some false else if b = 1 then some true else none

/-- A number 0 to 3: a class or a window code (R23). -/
def twoBits (b : Byte) : Option (Fin 4) := if h : b.toNat < 4 then some ⟨b.toNat, h⟩ else none

/-- A power count of one tray, 0 to 4095 (R23). -/
def powerOf (w : Half) : Option Nat := if w.toNat ≤ 4095 then some w.toNat else none

/-- The pace mode: 0 for GAP and 1 for CADENCE (R163). -/
def paceModeOf (b : Byte) : Option PaceMode := if b = 0 then some .gap else if b = 1 then some .cadence else none

/-- A number of the range lo to hi. -/
def within (lo hi n : Nat) : Option Nat := if lo ≤ n ∧ n ≤ hi then some n else none

/-- The configuration part that the ten fields of SET_TRAY give, when each lies in its range and no undefined flag bit is
set (R23, R163). -/
def TrayFields.config (f : TrayFields) : Option TrayConfig := do
  let cls ← twoBits f.cls
  let zone ← zoneParam f.zone
  let inrush ← powerOf f.inrush
  let standing ← powerOf f.standing
  let cap ← powerOf f.cap
  let window ← twoBits f.window
  let tries ← within 0 7 f.tries.toNat
  let _ ← within 0 7 f.flags.toNat
  return { cls := cls, zone := zone, inrush := inrush, standing := standing, cap := cap, window := window,
           tries := tries, selfRequest := f.flags.getLsbD 0, selfStart := f.flags.getLsbD 1,
           unattended := f.flags.getLsbD 2 }

/-- SET_LIMITS is refused with RANGE unless every setting lies in its range, the open floor below the wet threshold and
the warn limit below the over limit (R92, R127, R142). -/
def LimitFields.inRange (f : LimitFields) : Bool :=
  1 ≤ f.wet.toNat && f.wet.toNat ≤ 1023 && f.openFloor.toNat ≤ 1022 && f.openFloor.toNat < f.wet.toNat
    && 1 ≤ f.confirm.toNat && f.confirm.toNat ≤ 15 && f.warnLimit.toNat < f.overLimit.toNat

/-- A window length of R62. -/
def windowInRange (w : Half) : Bool := 10 ≤ w.toNat && w.toNat ≤ 60000

/-- SET_TIMING is refused with RANGE unless every setting lies in its range and the settings agree (R62, R74, R109,
R124, R142). -/
def TimingFields.inRange (f : TimingFields) : Bool :=
  (paceModeOf f.mode).isSome && f.interval.toNat ≤ 60000 && !(f.mode == 1 && f.interval == 0)
    && 1 ≤ f.k.toNat && f.k.toNat ≤ 4
    && windowInRange f.w0 && windowInRange f.w1 && windowInRange f.w2
    && f.s1.toNat + f.s2.toNat + f.s3.toNat ≤ 32767
    && 100 ≤ f.qualification.toNat && f.qualification.toNat ≤ 60000
    && 1 ≤ f.reply.toNat && f.reply.toNat ≤ 20
    && 20 ≤ f.census.toNat && f.census.toNat ≤ 2000

end Sys2Proof.Machine
end

