-- ==== Sys2Proof/Machine/Ops.lean ====
section
/-! DEFINITION. The named operations over the tray records, the collections, the slots and the latches: every change of a
tray's state, grant, commitment or marks goes through this file (R3 to R6, R9 to R22, R99). -/

namespace Sys2Proof.Machine

/-- The 32 trays in ascending tray number. -/
def allTrays : List TrayId := List.finRange 32

/-- The 8 zones in zone order. -/
def allZones : List ZoneId := List.finRange 8

/-! ### Views -/

/-- A tray's record. -/
def State.tray (s : State) (t : TrayId) : Tray := s.trays[t]

/-- A tray's configuration part. -/
def State.cfg (s : State) (t : TrayId) : TrayConfig := (s.tray t).cfg

/-- A zone's record. -/
def State.zone (s : State) (z : ZoneId) : Zone := s.leak.zones[z]

/-- A station's record. -/
def State.station (s : State) (a : StationId) : Station := s.link.stations[a]

/-- Tray n is station n on the Station Link (R1). -/
def trayStation (t : TrayId) : StationId := ⟨t.val, by omega⟩

/-- Usable capacity less committed, or 0 when committed is not below usable capacity (R26). -/
def State.headroom (s : State) : Nat := s.acct.usable - s.acct.committed

/-- A rise in committed fits when it is no more than the headroom (R30). -/
def State.fits (s : State) (rise : Nat) : Bool := rise ≤ s.headroom

/-- The holdup state is NORMAL. -/
def State.isNormal (s : State) : Bool := s.hup.state == .normal

/-- The account mode is SETTLED. -/
def State.isSettled (s : State) : Bool := s.acct.mode == .settled

/-- HOLDUP, or REGAIN with cold clear: an episode's states (R73). -/
def State.onBattery (s : State) : Bool := s.hup.state == .holdup || (s.hup.state == .regain && !s.hup.cold)

/-- REGAIN with cold clear. -/
def State.warmRegain (s : State) : Bool := s.hup.state == .regain && !s.hup.cold

/-- The zones in LEAK. -/
def State.leakZones (s : State) : List ZoneId := allZones.filter fun z => (s.zone z).state == .leak

/-- The tray's zone is in LEAK. -/
def State.zoneInLeak (s : State) (c : TrayConfig) : Bool :=
  match c.zone with
  | none => false
  | some z => (s.zone z).state == .leak

/-- The enable output is on exactly in INRUSH and RUN (R3). -/
def TrayState.enabled : TrayState → Bool
  | .inrush | .run => true
  | _ => false

/-- The tray belongs to a zone: the one of its configuration part, or every zone while locked (R21). -/
def Tray.inZone (r : Tray) (z : ZoneId) : Bool := r.locked || r.cfg.zone == some z

/-- A zone in SUSPECT or OPEN holds its trays (R10). -/
def Zone.holds (z : Zone) : Bool := z.state == .suspect || z.state == .opened

/-- Held by its zone (R10; for a locked tray log entry 20). -/
def State.heldByZone (s : State) (t : TrayId) : Bool :=
  allZones.any fun z => (s.tray t).inZone z && (s.zone z).holds

/-- Held because its station is not PRESENT (R10). -/
def State.heldByStation (s : State) (t : TrayId) : Bool := (s.station (trayStation t)).presence != .present

/-- A tray is held by its zone, its station or its lock (R10). -/
def State.held (s : State) (t : TrayId) : Bool := s.heldByZone t || s.heldByStation t || (s.tray t).locked

/-- The class that sorting and shedding use: 0 while locked (R21). -/
def Tray.effClass (r : Tray) : Nat := if r.locked then 0 else r.cfg.cls.val

/-- A tray's order key (R9). -/
def State.key (s : State) (t : TrayId) : Nat := s.seq.keys[t]

/-- The commitment that a state and a grant hold (R4); while locked, the frozen value in QUEUED and INRUSH. -/
def Tray.commitFor (r : Tray) (st : TrayState) (g : Nat) : Nat :=
  match st with
  | .queued | .inrush => if r.locked then r.frozen else max r.cfg.inrush g
  | .run => g
  | _ => 0

/-! ### Writing records -/

/-- Replaces marks and configuration of a record whose state and commitment do not change. -/
def State.setRecord (t : TrayId) (r : Tray) (s : State) : State := { s with trays := s.trays.set t r }

/-- Replaces a tray's record within a claim: the change of commitment is added to committed (R4, R30), the enable latch
follows the state (R3, R152), and a fall of committed is noted for R84. -/
def State.putTray (t : TrayId) (r : Tray) (s : State) : State :=
  { s with
    trays := s.trays.set t r
    acct := { s.acct with committed := s.acct.committed - (s.tray t).commitment + r.commitment }
    hold := { s.hold with enable := s.hold.enable.set t r.state.enabled }
    agenda := { s.agenda with fell := s.agenda.fell || decide (r.commitment < (s.tray t).commitment) } }

/-- What the event owes at its end. -/
def State.setAgenda (a : Agenda) (s : State) : State := { s with agenda := a }

/-- A start opportunity is reported (R64). -/
def opportunity (s : State) : State := s.setAgenda { s.agenda with opportunity := true }

/-- An admission pass becomes due at the end of the claim (R49). -/
def admissionDue (s : State) : State := s.setAgenda { s.agenda with admission := true }

/-- The holdup record. -/
def State.setHup (h : Holdup) (s : State) : State := { s with hup := h }

/-- The automatic run due mark, and whether the round under way began after it was set (R61). -/
def State.setDue (due begun : Bool) (s : State) : State :=
  { s with seq := { s.seq with autoDue := due, autoBegun := begun } }

/-- The entries of the active plan. -/
def State.setPlan (plan : List PlanEntry) (s : State) : State := { s with seq := { s.seq with plan := plan } }

/-- One inrush slot. -/
def State.setSlot (j : SlotId) (v : Option Slot) (s : State) : State :=
  { s with seq := { s.seq with slots := s.seq.slots.set j v } }

/-- The pace timer. -/
def State.setPace (v : Option Nat) (s : State) : State := { s with seq := { s.seq with paceTimer := v } }

/-! ### The collections (R12 to R16) -/

/-- A tray joins the Start Queue at the tail: a start opportunity, and in CADENCE an append to an empty queue starts the
pace timer from zero (R13, R64, R65). -/
def enqueue (t : TrayId) (s : State) : State :=
  let s := if s.seq.paceMode == .cadence && s.queue.isEmpty then s.setPace (some s.seq.paceInterval) else s
  opportunity { s with queue := s.queue ++ [t] }

/-- A tray leaves the Start Queue from wherever it stands; in CADENCE the pace timer stops when the queue becomes empty
(R13, R65). -/
def dequeue (t : TrayId) (s : State) : State :=
  let q := s.queue.filter (· != t)
  let s := { s with queue := q }
  if s.seq.paceMode == .cadence && q.isEmpty then s.setPace none else s

/-- Park List order: class descending, then order key ascending (R14). -/
def State.parkBefore (s : State) (a b : TrayId) : Bool :=
  let ca := (s.tray a).effClass
  let cb := (s.tray b).effClass
  cb < ca || (ca == cb && s.key a ≤ s.key b)

/-- Shed Order: locked trays first, by order key descending; then class ascending, by order key descending (R15). -/
def State.shedBefore (s : State) (a b : TrayId) : Bool :=
  let la := (s.tray a).locked
  let lb := (s.tray b).locked
  if la != lb then la
  else
    let ca := (s.tray a).effClass
    let cb := (s.tray b).effClass
    ca < cb || (ca == cb && s.key b ≤ s.key a)

/-- Insertion into a sorted list. -/
def insertBy (before : TrayId → TrayId → Bool) (t : TrayId) : List TrayId → List TrayId
  | [] => [t]
  | u :: us => if before t u then t :: u :: us else u :: insertBy before t us

/-- A list sorted by insertion; the keys differ, so the order has no ties (R9). -/
def sortBy (before : TrayId → TrayId → Bool) : List TrayId → List TrayId
  | [] => []
  | t :: ts => insertBy before t (sortBy before ts)

/-- The Park List in its order (R14, R16). -/
def sortPark (s : State) : State := { s with park := sortBy s.parkBefore s.park }

/-- The Shed Order view over the trays in INRUSH and RUN (R15). -/
def State.shedOrder (s : State) : List TrayId :=
  sortBy s.shedBefore (allTrays.filter fun t => (s.tray t).state.enabled)

/-- The slot a tray holds. -/
def State.slotOf (s : State) (t : TrayId) : Option SlotId :=
  (List.finRange 4).find? fun j => (s.seq.slots[j]).any fun w => w.tray == t

/-- How many slots hold a tray: the INRUSH count (R63). -/
def State.inrushCount (s : State) : Nat := ((List.finRange 4).filter fun j => (s.seq.slots[j]).isSome).length

/-- The tray's slot is freed and its window discarded; the freed slot is a start opportunity (R63, R71). -/
def freeSlot (t : TrayId) (s : State) : State :=
  opportunity { s with seq := { s.seq with
    slots := s.seq.slots.map fun w => if w.any (fun v => v.tray == t) then none else w } }

/-- A tray leaves the collection of the state it is in (R12). -/
def leaveCollection (t : TrayId) (s : State) : State :=
  match (s.tray t).state with
  | .queued => dequeue t s
  | .parked => { s with park := s.park.filter (· != t) }
  | .inrush => freeSlot t s
  | _ => s

/-- A tray joins the collection of the state it has entered; a starting tray's slot is taken at the start (R12, R66). -/
def joinCollection (t : TrayId) (st : TrayState) (s : State) : State :=
  match st with
  | .queued => enqueue t s
  | .parked => { s with park := insertBy s.parkBefore t s.park }
  | _ => s

/-! ### A claim that changes a tray's state (R5, R6) -/

/-- The states in which the deferred and over_cap marks stand; every other state clears them (R2). -/
def TrayState.keepsMarks : TrayState → Bool
  | .queued | .inrush | .run => true
  | _ => false

/-- The record of a tray that enters a state with a grant: the revision increments, the marks follow the state, the
commitment follows R4. -/
def Tray.enter (r : Tray) (st : TrayState) (g : Nat) (cause : Option FaultCause) : Tray :=
  { r with
    state := st
    grant := g
    commitment := r.commitFor st g
    revision := r.revision + 1
    faultCause := cause
    adopted := r.adopted && st == .run
    deferred := r.deferred && st.keepsMarks
    overCap := r.overCap && st.keepsMarks }

/-- The demand of the tray's last reply, the value of an OVER_CAP entry made without a demand (log entry 17). -/
def State.lastDemand (s : State) (t : TrayId) : Option Nat :=
  match (s.station (trayStation t)).last with
  | some (.tray _ _ _ d) => some d
  | _ => none

/-- The OVER_CAP entry of a mark that clears because its tray leaves a state (R44). -/
def overCapCleared (t : TrayId) (s : State) : State :=
  journalise .overCap (some (.tray t)) (s.lastDemand t) (some .cleared) s

/-- A tray moves to a state with a grant: it leaves its collection, its record, its commitment and its enable change, and
it joins the collection of its new state (R5, R6, R12). The Park List's members are not tested here. The OVER_CAP entry of a
mark that clears comes before every other entry of the claim (log entry 46). -/
def moveBare (t : TrayId) (st : TrayState) (g : Nat) (cause : Option FaultCause) (s : State) : State :=
  let s := if (s.tray t).overCap && !st.keepsMarks then overCapCleared t s else s
  let s := leaveCollection t s
  let s := s.putTray t ((s.tray t).enter st g cause)
  joinCollection t st s

/-! ### Isolation (R99) and the lock (R18) -/

/-- The isolation claim: ISOLATED with grant and commitment 0, an ISOLATE entry with the commitment before as value and
the zone as reason, and the admission pass that a released commitment calls for (R49, R99). -/
def isolate (z : ZoneId) (t : TrayId) (s : State) : State :=
  let before := (s.tray t).commitment
  let s := moveBare t .isolated 0 none s
  let s := journalise .isolate (some (.tray t)) (some before) (some (.number z.val)) s
  admissionDue s

/-- The states from which a tray is isolated: any but FAULTED and ISOLATED (R99). -/
def TrayState.isolable : TrayState → Bool
  | .faulted | .isolated => false
  | _ => true

/-- The zone an isolation at a lock names: the zone whose LEAK entry is being taken, or the only zone in LEAK, or a free
choice among several (log entry 16). -/
def pickLeakZone (entering : Option ZoneId) (s : State) : Option ZoneId × State :=
  match entering with
  | some z => (some z, s)
  | none =>
    match s.leakZones with
    | [] => (none, s)
    | [z] => (some z, s)
    | z :: zs =>
      ((z :: zs)[Config.freeLeakZone s.draws % (zs.length + 1)]?, { s with draws := s.draws + 1 })

/-- The integrity trap takes a failure: latched when empty, and otherwise more is set (R19). -/
def trapFailure (src : TrapSource) (s : State) : State :=
  match s.trap.latched with
  | none => { s with trap := { latched := some src, more := false } }
  | some _ => { s with trap := { s.trap with more := true } }

/-- The steps of R18 for one tray whose configuration part has failed its check. -/
def lockOne (entering : Option ZoneId) (t : TrayId) (s : State) : State :=
  let r := s.tray t
  let s := s.setRecord t { r with locked := true, frozen := r.commitment }
  let s := sortPark s
  let s := if r.state.isolable then
      match pickLeakZone entering s with
      | (some z, s') => isolate z t s'
      | (none, s') => s'
    else s
  let s := trapFailure (.tray t) s
  raise .integrity (journalise .integrity (some (.tray t)) none none s)

/-- The code of a tray that is not yet locked fails (R17). -/
def Tray.failsCheck (r : Tray) : Bool := r.code == .failing && !r.locked

/-- One tray's configuration part is tested, without the re-sort's own reads. -/
def testOne (entering : Option ZoneId) (t : TrayId) (s : State) : State :=
  if (s.tray t).failsCheck then lockOne entering t s else s

/-- The members of a collection are tested as its sorting reads them (R17; log entry 15). -/
def testMembers (entering : Option ZoneId) (member : TrayState → Bool) (s : State) : State :=
  allTrays.foldl (fun s t => if member (s.tray t).state then testOne entering t s else s) s

/-- A read of a tray's configuration part with its check (R17). A part that fails locks its tray (R18), and the
re-sort of the collection that held it reads that collection's other members. -/
def checkReadIn (entering : Option ZoneId) (t : TrayId) (s : State) : State :=
  if (s.tray t).failsCheck then
    let st := (s.tray t).state
    let s := lockOne entering t s
    if st == .parked then testMembers entering (· == .parked) s
    else if st.enabled then testMembers entering TrayState.enabled s
    else s
  else s

/-- A read of a tray's configuration part outside a zone's LEAK entry. -/
def checkRead (t : TrayId) (s : State) : State := checkReadIn none t s

/-- The Park List and the Shed Order are re-sorted, which reads their members (R16, R17), those of the Park List first
(log entry 50). -/
def resort (s : State) : State :=
  sortPark (testMembers none TrayState.enabled (testMembers none (· == .parked) s))

/-- A tray moves to a state with a grant; placing it in the Park List reads the list's members (R14, R17), and the INTEGRITY
entries of those reads come before the claim's own entry (log entry 46). -/
def move (t : TrayId) (st : TrayState) (g : Nat) (cause : Option FaultCause) (s : State) : State :=
  let s := moveBare t st g cause s
  if st == .parked then testMembers none (· == .parked) s else s

/-! ### Marks -/

/-- The adopted mark clears, with no field of the revision changed (R2, R6). -/
def clearAdopted (t : TrayId) (s : State) : State := s.setRecord t { s.tray t with adopted := false }

/-- The deferred mark. -/
def setDeferred (t : TrayId) (v : Bool) (s : State) : State := s.setRecord t { s.tray t with deferred := v }

/-- The over_cap mark; each change makes an OVER_CAP entry (R44). -/
def setOverCap (t : TrayId) (v : Bool) (demand : Option Nat) (s : State) : State :=
  if (s.tray t).overCap == v then s
  else
    journalise .overCap (some (.tray t)) demand (some (if v then .set else .cleared))
      (s.setRecord t { s.tray t with overCap := v })

/-- The grant of a tray changes without a change of state: the revision increments, the deferred mark clears and the
commitment follows (R38, R39, R43). A manager's GRANT also clears the adopted mark. -/
def resizeGrant (t : TrayId) (g : Nat) (keepAdopted : Bool) (s : State) : State :=
  let r := s.tray t
  s.putTray t { r with
    grant := g, commitment := r.commitFor r.state g, revision := r.revision + 1, deferred := false,
    adopted := r.adopted && keepAdopted }

/-- The zone record's own update. -/
def State.setZone (z : ZoneId) (r : Zone) (s : State) : State :=
  { s with leak := { s.leak with zones := s.leak.zones.set z r } }

/-- A station record's own update. -/
def State.setStation (a : StationId) (r : Station) (s : State) : State :=
  { s with link := { s.link with stations := s.link.stations.set a r } }

/-- The key table of a plan: a listed tray's position, or 32 plus the index (R9). -/
def planKeys (plan : List TrayId) : Vector Nat 32 :=
  Vector.ofFn fun t : Fin 32 => (plan.findIdx? (· == t)).getD (32 + t.val)

end Sys2Proof.Machine
end

