-- ==== Sys2Proof/Machine/Budget.lean ====
section
/-! DEFINITION. Chapter 2: the capacities, the admission pass and the shortfall pass. -/

namespace Sys2Proof.Machine

/-! ### Capacities (R27 to R29, R113, R114) -/

/-- The derived states of rectifiers and battery modules, with their codes (R113, R114, R166). -/
inductive Derived where
  | ok | ready | low | failed | silent | absent
  deriving DecidableEq, Repr

/-- The code of a rectifier's derived state (R166). -/
def Derived.rectifierCode : Derived → Nat
  | .ok | .ready => 0 | .failed | .low => 1 | .silent => 2 | .absent => 3

/-- The code of a battery module's derived state (R166). -/
def Derived.batteryCode : Derived → Nat
  | .ok | .ready => 0 | .low => 1 | .failed => 2 | .silent => 3 | .absent => 4

/-- A module's derived state, from its presence and its last reply (R113, R114). -/
def Station.derived (r : Station) : Derived :=
  match r.presence, r.last with
  | .silent, _ => .silent
  | .absent, _ => .absent
  | .present, some (.rectifier outputOk _ _) => if outputOk then .ok else .failed
  | .present, some (.battery ready low _ _) => if !ready then .failed else if low then .low else .ready
  | .present, _ => .failed

/-- The rating that a module counts with: that of its last reply while OK or READY, and none otherwise (R27, R28). -/
def Station.counted (r : Station) : Option Nat :=
  match r.derived, r.last with
  | .ok, some (.rectifier _ _ rating) => some rating
  | .ready, some (.battery _ _ _ rating) => some rating
  | _, _ => none

/-- The rectifier stations, addresses 32 to 37 (R106). -/
def rectifiers : List StationId := [32, 33, 34, 35, 36, 37]

/-- The battery stations, addresses 38 to 41 (R106). -/
def batteries : List StationId := [38, 39, 40, 41]

/-- The ratings counted among some stations. -/
def State.ratings (s : State) (as : List StationId) : List Nat := as.filterMap fun a => (s.station a).counted

/-- Shelf capacity as the rectifiers stand: the sum of the ratings of those OK, less the largest once when redundancy is
on (R27). -/
def State.shelfNow (s : State) : Nat :=
  let rs := s.ratings rectifiers
  rs.sum - if s.acct.redundancy then rs.foldl max 0 else 0

/-- Battery capacity as the modules stand (R28). -/
def State.batteryNow (s : State) : Nat := (s.ratings batteries).sum

/-- Usable capacity by the holdup state and the cold flag (R29). -/
def usableFor (st : HoldupState) (cold : Bool) (shelf battery : Nat) : Nat :=
  match st with
  | .normal => shelf
  | .holdup => battery
  | .regain => if cold then 0 else battery
  | .dark => 0

/-- Usable capacity is set from the table of R29. -/
def setUsable (s : State) : State :=
  { s with acct := { s.acct with usable := usableFor s.hup.state s.hup.cold s.acct.shelf s.acct.battery } }

/-! ### The admission pass (R50) -/

/-- The walk of the Park List: a held tray is passed over, a tray that fits is queued, and the first that does not fit
stops the walk (R50). A tray locked by the read is passed over, and one isolated has left the list (R18). -/
def admissionWalk : List TrayId → State → State
  | [], s => s
  | t :: ts, s =>
    if (s.tray t).state != .parked || s.held t then admissionWalk ts s
    else
      let s := checkRead t s
      if (s.tray t).locked then admissionWalk ts s
      else
        let r := s.tray t
        let c := r.commitFor .queued r.grant
        if s.fits c then
          let s := move t .queued r.grant none s
          admissionWalk ts (journalise .admitted (some (.tray t)) (some c) none s)
        else s

/-- The admission pass (R49, R50). A lock it finds calls for no further pass (R18). -/
def admissionPass (s : State) : State :=
  let s := admissionWalk s.park s
  s.setAgenda { s.agenda with admission := false }

/-- The admission pass runs only while the holdup state is NORMAL and the account mode SETTLED (R49). -/
def admissionIfAllowed (s : State) : State := if s.isNormal && s.isSettled then admissionPass s else s

/-! ### The shortfall pass (R47, R48) -/

/-- One tray moved by the shortfall pass: parked with its grant kept, with its SHORTFALL_SHED entry; a pass that moves
at least one tray sets the alert cause (R47, R48). -/
def shortfallMove (reason : Reason) (t : TrayId) (s : State) : State :=
  let before := (s.tray t).commitment
  let s := move t .parked (s.tray t).grant none s
  raise .shortfallShed (journalise .shortfallShed (some (.tray t)) (some before) (some reason) s)

/-- Step 1: the tail of the Start Queue is withdrawn while committed exceeds usable capacity (R47). -/
def withdrawals : Nat → State → State
  | 0, s => s
  | n + 1, s =>
    if s.acct.usable < s.acct.committed then
      match s.queue.getLast? with
      | some t => withdrawals n (shortfallMove .withdrawn t s)
      | none => s
    else s

/-- The tray that step 2 sheds next: the head of the Shed Order while committed exceeds usable capacity (R47). -/
def shedNext (s : State) : Option TrayId :=
  if s.acct.usable < s.acct.committed then s.shedOrder.head? else none

/-- One round of step 2; taking the Shed Order reads the classes of its members (R17), and the answer says which tray is
then shed. -/
def shedRound (s : State) : State × Option TrayId :=
  if s.acct.usable < s.acct.committed then
    let s := testMembers none TrayState.enabled s
    (s, shedNext s)
  else (s, none)

/-- Step 2: the head of the Shed Order is shed while committed exceeds usable capacity, the order taken afresh each time
(R47). -/
def sheds : Nat → State → State
  | 0, s => s
  | n + 1, s =>
    match shedRound s with
    | (s, some t) => sheds n (shortfallMove .shed t s)
    | (s, none) => s

/-- The shortfall pass (R47, R48). Each round of either step takes a tray out of QUEUED, INRUSH or RUN, so 32 rounds of
each suffice. No admission pass follows it within the same claim. -/
def shortfallPass (s : State) : State :=
  let s := sheds 32 (withdrawals 32 s)
  s.setAgenda { s.agenda with shortfall := true }

/-- The shortfall pass runs while the mode is SETTLED, when committed exceeds usable capacity (R46). -/
def shortfallIfDue (s : State) : State :=
  if s.isSettled && decide (s.acct.usable < s.acct.committed) then shortfallPass s else s

end Sys2Proof.Machine
end

