-- ==== Sys2Proof/Machine/Ride.lean ====
section
/-! DEFINITION. Chapter 4: the transitions of the Holdup Controller, the stages of an episode, and the committed-fall
test. -/

namespace Sys2Proof.Machine

/-! ### Entering NORMAL (R85, R86) -/

/-- Entry to NORMAL from REGAIN. From warm REGAIN the episode ends and its elapsed ticks are latched (R85); from cold
REGAIN the automatic run due mark is set (R86). Either way usable capacity becomes shelf capacity, the admission pass
runs when the mode is SETTLED, and the entry is a start opportunity. -/
def enterNormal (s : State) : State :=
  let cold := s.hup.cold
  let elapsed := if cold then s.hup.lastElapsed else (s.hup.total - s.hup.timer).toNat
  let s := s.setHup { s.hup with
    state := .normal, cold := false, qualified := false, stage := none, stageTick := none, qualTimer := none,
    lastElapsed := elapsed }
  let s := admissionIfAllowed (setUsable s)
  let s := opportunity (if cold then s.setDue true false else s)
  let s := journalise .normalBack none (some (if cold then 0 else elapsed)) (some (if cold then .cold else .warm)) s
  raise .normalBack s

/-- The committed-fall test: in warm REGAIN with qualified set, NORMAL is entered when shelf capacity is at least
committed (R84). -/
def regainTest (s : State) : State :=
  if s.warmRegain && s.hup.qualified && decide (s.acct.committed ≤ s.acct.shelf) then enterNormal s else s

/-! ### DARK (R89) -/

/-- One tray of a DARK entry becomes IDLE (R89 step 1). -/
def darkenTray (s : State) (t : TrayId) : State :=
  match (s.tray t).state with
  | .queued | .inrush | .run | .parked => moveBare t .idle 0 none s
  | _ => s

/-- DARK turns to cold REGAIN: the qualification timer is armed and usable capacity stays 0 (R86). -/
def enterColdRegain (s : State) : State :=
  let s := s.setHup { s.hup with state := .regain, cold := true, qualTimer := some s.hup.qualification }
  journalise .regain none none (some .cold) (setUsable s)

/-- DARK entry (R89), which passes on into cold REGAIN within the event when PFAIL_N is deasserted. -/
def enterDark (reason : Reason) (s : State) : State :=
  let fromCold := s.hup.state == .regain && s.hup.cold
  let moved := (allTrays.filter fun t =>
    match (s.tray t).state with | .queued | .inrush | .run | .parked => true | _ => false).length
  let s := allTrays.foldl darkenTray s
  let s := s.setPace none
  let elapsed := if s.hup.stage.isSome then (s.hup.total - s.hup.timer).toNat else s.hup.lastElapsed
  let s := s.setHup { s.hup with
    state := .dark, cold := false, qualified := false, qualTimer := none, stage := none, stageTick := none,
    lastElapsed := elapsed }
  let s := setUsable (s.setDue false false)
  let s := journalise .dark none (some moved) (some reason) s
  let s := if fromCold then s else raise .dark s
  if s.sup.pfailAsserted then s else enterColdRegain s

/-! ### Stages (R78 to R80) -/

/-- One tray at the end of a stage: a RUN tray's class is read with its check, and a tray of the class or lower is shed
to PARKED (R79). The count of trays shed so far goes with the state. -/
def stageShed (stage : Nat) (a : State × Nat) (t : TrayId) : State × Nat :=
  let (s, n) := a
  if (s.tray t).state == .run then
    let s := checkRead t s
    let r := s.tray t
    if r.state == .run && decide (r.effClass < stage) then
      let s := move t .parked r.grant none s
      (journalise .stageShed (some (.tray t)) (some r.commitment) (some (.number stage)) s, n + 1)
    else (s, n)
  else (s, n)

/-- The end of stage k, with its shedding, its entries and the test of R84 (R79). -/
def endStage (stage : Nat) (s : State) : State :=
  let (s, n) := allTrays.foldl (stageShed stage) (s, 0)
  let s := journalise .stageEnd none (some n) (some (.number stage)) s
  let s := if n = 0 then s else raise .stageShed s
  regainTest s

/-- The stage field. -/
def setStage (v : Option Stage) (s : State) : State := s.setHup { s.hup with stage := v }

/-- The episode passes into OVERRUN (R80). -/
def enterOverrun (s : State) : State :=
  raise .overrun (journalise .overrun none (some s.hup.total) none (setStage (some .overrun) s))

/-- Every stage whose boundary the stage timer has reached ends, in order (R78, R161). A stage end that brings the rack
to NORMAL ends the episode, and with it the later stages (log entry 24). -/
def advanceStages : Nat → State → State
  | 0, s => s
  | n + 1, s =>
    match s.hup.stage with
    | some .one =>
      if s.hup.timer ≤ s.hup.bound1 then
        let s := endStage 1 s
        if s.onBattery then advanceStages n (setStage (some .two) s) else s
      else s
    | some .two =>
      if s.hup.timer ≤ s.hup.bound2 then
        let s := endStage 2 s
        if s.onBattery then advanceStages n (setStage (some .three) s) else s
      else s
    | some .three =>
      if s.hup.timer ≤ 0 then
        let s := endStage 3 s
        if s.onBattery then enterOverrun s else s
      else s
    | _ => s

/-! ### HOLDUP (R76, R82) -/

/-- A new episode's total, timer, boundaries, tick and count (R76 step 5, R161). -/
def beginEpisode (s : State) : State :=
  let total := s.hup.s1 + s.hup.s2 + s.hup.s3
  s.setHup { s.hup with
    total := total, timer := total, bound1 := s.hup.s2 + s.hup.s3, bound2 := s.hup.s3,
    stageTick := some Config.stageTickMs, episodes := s.hup.episodes + 1, qualified := false, stage := some .one }

/-- One tray that HOLDUP entry parks from the given state (R76 steps 1 and 2). -/
def holdupPark (from_ : TrayState) (reason : Reason) (s : State) (t : TrayId) : State :=
  if (s.tray t).state == from_ then
    let r := s.tray t
    let s := move t .parked r.grant none s
    journalise .holdupPark (some (.tray t)) (some r.commitment) (some reason) s
  else s

/-- HOLDUP entry from NORMAL: a new episode (R76). -/
def enterHoldup (s : State) : State :=
  let s := allTrays.foldl (holdupPark .queued .withdrawn) s
  let s := allTrays.foldl (holdupPark .inrush .shed) s
  let s := s.setPace none
  let s := (s.setHup { s.hup with state := .holdup, cold := false }).setDue false false
  let s := shortfallIfDue (setUsable s)
  let s := beginEpisode s
  let s := journalise .holdup none (some s.acct.battery) (some .newEpisode) s
  let s := raise .holdup s
  advanceStages 3 s

/-- Return to HOLDUP from warm REGAIN, in the same episode (R82). -/
def resumeHoldup (s : State) : State :=
  let s := s.setHup { s.hup with state := .holdup, qualTimer := none, qualified := false }
  let s := setUsable s
  raise .holdup (journalise .holdup none (some (timerValue s.hup.timer)) (some .resumed) s)

/-- Warm REGAIN, entered from HOLDUP: the qualification timer is armed and the episode continues (R81). -/
def enterWarmRegain (s : State) : State :=
  let s := s.setHup { s.hup with
    state := .regain, cold := false, qualified := false, qualTimer := some s.hup.qualification }
  let s := setUsable s
  journalise .regain none (some (timerValue s.hup.timer)) (some .warm) s

end Sys2Proof.Machine
end

