-- ==== Sys2Proof/Machine/Starting.lean ====
section
/-! DEFINITION. Chapter 3: one start, the start opportunity, window ends, plan runs; and the end of a claim and of an
event, where the passes, the committed-fall test and the start opportunity are taken. -/

namespace Sys2Proof.Machine

/-! ### One start (R63, R66, R67) -/

/-- The window length that a window code chooses (R67). -/
def Sequencer.windowLength (q : Sequencer) (code : Fin 4) : Nat :=
  if code = 0 then q.w0 else if code = 1 then q.w1 else q.w2

/-- The lowest-numbered free slot (R63). -/
def State.freeSlot? (s : State) : Option SlotId := (List.finRange 4).find? fun j => (s.seq.slots[j]).isNone

/-- A window is armed in a slot, under the number of its start (R67, R108). -/
def armWindow (j : SlotId) (t : TrayId) (code : Fin 4) (s : State) : State :=
  let len := s.seq.windowLength code
  { s with seq := { s.seq with
    slots := s.seq.slots.set j (some { tray := t, window := code, length := len, report := .none, remaining := len,
                                       start := s.seq.starts })
    starts := s.seq.starts + 1 } }

/-- Steps 2 to 6 of a start: the tray leaves the queue for INRUSH and takes the slot, its window is armed, and in GAP
with an interval above 0 the pace timer is armed (R66). -/
def startTray (t : TrayId) (j : SlotId) (s : State) : State :=
  let code := (s.cfg t).window
  let s := move t .inrush (s.tray t).grant none s
  let s := armWindow j t code s
  let s := if s.seq.paceMode == .gap && decide (0 < s.seq.paceInterval) then s.setPace (some s.seq.paceInterval) else s
  journalise .start (some (.tray t)) (some (s.seq.windowLength code)) (some (.number j.val)) s

/-- A start chooses the first tray in queue order that is not held. The read of its window code may lock it, and the
Sequencer then chooses again (R66 step 1). The answer says whether a start was taken. -/
def startFirst : List TrayId → State → State × Bool
  | [], s => (s, false)
  | t :: ts, s =>
    if (s.tray t).state != .queued || s.held t then startFirst ts s
    else
      let s := checkRead t s
      if (s.tray t).locked then startFirst ts s
      else
        match s.freeSlot? with
        | some j => (startTray t j s, true)
        | none => (s, false)

/-- The conditions of a start that both pace modes test (R64, R65). -/
def State.startAllowed (s : State) : Bool :=
  decide (s.inrushCount < s.seq.k) && s.queue.any (fun t => !s.held t) && s.isNormal && s.isSettled

/-- A start opportunity in GAP mode: one start when the conditions hold, and with an interval of 0 further starts until
they do not (R64). K is at most 4, so four rounds suffice. -/
def gapStarts : Nat → State → State
  | 0, s => s
  | n + 1, s =>
    if s.seq.paceTimer.isNone && s.startAllowed then
      let (s, started) := startFirst s.queue s
      if started && s.seq.paceInterval == 0 then gapStarts n s else s
    else s

/-- A start opportunity is tested; in CADENCE mode it offers no start (R64, R65). -/
def offerStart (s : State) : State :=
  let s := s.setAgenda { s.agenda with opportunity := false }
  if s.seq.paceMode == .gap then gapStarts 4 s else s

/-- The start that a CADENCE expiry offers (R65). -/
def cadenceStart (s : State) : State := if s.startAllowed then (startFirst s.queue s).1 else s

/-! ### The end of a claim and of an event (log entry 13) -/

/-- The end of a claim: the admission pass it calls for, unless it has run a shortfall pass, and then the committed-fall
test (R47, R49, R84). A pass whose cause arises outside NORMAL or in RECOVERING is not remembered (R31, R49). -/
def endClaim (s : State) : State :=
  let due := s.agenda.admission && !s.agenda.shortfall
  let s := s.setAgenda { s.agenda with admission := false, shortfall := false }
  let s := if due then admissionIfAllowed s else s
  if s.agenda.fell then regainTest (s.setAgenda { s.agenda with fell := false }) else s

/-- The claim's end and the start opportunity, taken again while a lock found by a start has left a pass due (R18). -/
def finishRounds : Nat → State → State
  | 0, s => s
  | n + 1, s =>
    let s := endClaim s
    if s.agenda.opportunity then
      let s := offerStart s
      if s.agenda.admission then finishRounds n s else s
    else s

/-- The end of an event: what it owes is taken, and nothing is owed afterwards. Each further round needs a tray newly
locked by a start, so 33 rounds suffice. -/
def finish (s : State) : State := (finishRounds 33 s).setAgenda .none

/-! ### Window ends (R68 to R70) -/

/-- A successful start: RUN, the slot freed, tries_left reloaded by a read with its check (R69). The STARTED entry carries the
grant with which the tray entered RUN, also when that read isolates it (log entry 47). -/
def startSucceeded (t : TrayId) (s : State) : State :=
  let g := (s.tray t).grant
  let s := move t .run g none s
  let s := checkRead t s
  let r := s.tray t
  let s := if r.locked then s else s.setRecord t { r with triesLeft := r.cfg.tries }
  let s := journalise .started (some (.tray t)) (some g) none s
  admissionDue s

/-- A failed start: a retry at the queue's tail, or FAULTED with cause START; its entry has the tray as subject (R70; log entry 57). -/
def startFailed (t : TrayId) (s : State) : State :=
  let r := s.tray t
  let s :=
    if 0 < r.triesLeft then
      let s := s.setRecord t { r with triesLeft := r.triesLeft - 1 }
      let s := move t .queued r.grant none s
      journalise .startFail (some (.tray t)) (some (r.triesLeft - 1)) (some .retry) s
    else
      let s := move t .faulted 0 (some .start) s
      admissionDue (journalise .startFail (some (.tray t)) (some 0) (some .faulted) s)
  raise .startFail s

/-- A window end: the start is judged by the latest report (R68). A slot that holds no window has no end. -/
def windowEnd (j : SlotId) (s : State) : State :=
  match s.seq.slots[j] with
  | none => s
  | some w => if w.report == .good then startSucceeded w.tray s else startFailed w.tray s

/-! ### Plan entries and plan runs (R20, R59 to R61) -/

/-- A plan entry that fails its check is reported once: its reported mark, the trap, an INTEGRITY entry with the
position as value, and the alert cause (R20). -/
def reportEntry (i : Nat) (s : State) : State :=
  match s.seq.plan[i]? with
  | none => s
  | some e =>
    if e.code == .failing && !e.reported then
      let s := s.setPlan (s.seq.plan.set i { e with reported := true })
      let s := trapFailure (.plan i) s
      raise .integrity (journalise .integrity none (some i) none s)
    else s

/-- The check codes of the active entries are tested in plan order, and each failure reported once (R20; log entry 44). -/
def reportEntries (s : State) : State := (List.range s.seq.plan.length).foldl (fun s i => reportEntry i s) s

/-- Whether either port's lease is live. -/
def State.anyLease (s : State) : Bool := s.portA.lease.isSome || s.portB.lease.isSome

/-- The counts of a plan run. -/
structure RunCounts where
  queued : Nat
  parked : Nat
  skipped : Nat
  deriving DecidableEq, Repr

/-- The reason for which an entry's tray is ineligible, tested in order after its configuration has been read; none
when it is eligible (R59). -/
def planSkip (automatic : Bool) (t : TrayId) (s : State) : Option Reason :=
  let r := s.tray t
  if r.locked then some .skipLocked
  else if s.zoneInLeak r.cfg then some .inLeak
  else if (s.station (trayStation t)).presence != .present then some .station
  else if r.cfg.standing == 0 then some .noGrant
  else if automatic && !s.anyLease && !r.cfg.unattended then some .unattended
  else none

/-- An eligible tray is queued or parked at its grant, by whether its commitment in QUEUED fits (R37, R45, R59). -/
def queueOrPark (t : TrayId) (g : Nat) (s : State) : State × Bool :=
  if s.fits ((s.tray t).commitFor .queued g) then (move t .queued g none s, true) else (move t .parked g none s, false)

/-- One entry of a plan run (R59). -/
def planRunEntry (automatic : Bool) (a : State × RunCounts) (i : Nat) : State × RunCounts :=
  let (s, n) := a
  match s.seq.plan[i]? with
  | none => (s, n)
  | some e =>
    let skip (subject : Subject) (why : Reason) (s : State) :=
      (journalise .planSkip (some subject) none (some why) s, { n with skipped := n.skipped + 1 })
    if e.code == .failing then skip (.position i) .badEntry (reportEntry i s)
    else if (s.tray e.tray).state != .idle then skip (.tray e.tray) .state s
    else
      let s := checkRead e.tray s
      match planSkip automatic e.tray s with
      | some why => skip (.tray e.tray) why s
      | none =>
        match queueOrPark e.tray (s.cfg e.tray).standing s with
        | (s, true) => (s, { n with queued := n.queued + 1 })
        | (s, false) => (s, { n with parked := n.parked + 1 })

/-- A plan run: the entries in plan order, and the PLAN_RUN entry with the number queued or parked (R59). -/
def planRun (automatic : Bool) (s : State) : State × RunCounts :=
  let (s, n) := (List.range s.seq.plan.length).foldl (planRunEntry automatic)
    (s, { queued := 0, parked := 0, skipped := 0 })
  (journalise .planRun none (some (n.queued + n.parked)) (some (if automatic then .automatic else .manual)) s, n)

/-- The Sequencer's part of a round end: an automatic run that is due is taken, or dropped when auto_restart is off, at
the end of the first complete round that began after the mark was set (R61, R107). -/
def automaticRun (s : State) : State :=
  if s.seq.autoDue then
    if s.seq.autoBegun then
      let s := s.setDue false false
      if s.acct.autoRestart then (planRun true s).1 else s
    else s.setDue true true
  else s

end Sys2Proof.Machine
end

