-- ==== Sys2Proof/Machine/StationLink.lean ====
section
/-! DEFINITION. Chapters 2 and 6: capacity claims, polls and rounds, presence, and what each reply hands on. -/

namespace Sys2Proof.Machine

/-! ### Capacity claims (R33, R34) -/

/-- A capacity claim: the capacities are worked out again; a changed sum makes a CAPACITY entry and sets the alert cause;
the Holdup Controller takes battery exhaustion and the test of a qualified REGAIN; otherwise a fall of usable capacity
runs the shortfall pass and a rise of headroom calls for the admission pass (R33, R34, R84, R88). When the test enters
NORMAL, the passes are those of that entry's basis claim (R34). The CAPACITY entry comes before every entry that follows from the
new capacities (log entry 60). -/
def capacityClaim (subject : Option Subject) (reason : Reason) (s : State) : State :=
  let before := s
  let s := { s with acct := { s.acct with shelf := s.shelfNow, battery := s.batteryNow } }
  let s := setUsable s
  let changed := s.acct.shelf != before.acct.shelf || s.acct.battery != before.acct.battery
  let value := if reason == .battery then s.acct.battery else s.acct.shelf
  let s := if changed then raise .capacity (journalise .capacity subject (some value) (some reason) s) else s
  if s.onBattery && s.acct.battery == 0 && before.acct.battery != 0 then enterDark .batteryExhausted s
  else
    let s := if s.acct.shelf != before.acct.shelf then regainTest s else s
    if s.hup.state != before.hup.state then s
    else
      let s := if s.acct.usable < before.acct.usable then shortfallIfDue s else s
      if before.headroom < s.headroom then admissionDue s else s

/-! ### Polls and rounds (R107, R108) -/

/-- The station after an address in the order of a round: rectifiers, batteries, trays (R107). -/
def nextAddress (a : StationId) : StationId :=
  if a = 41 then 0 else if a = 31 then 32 else a + 1

/-- The window that an INRUSH tray's poll identifies: its slot and the start that armed it (R108). -/
def State.windowOf (s : State) (t : TrayId) : Option (SlotId × Nat) :=
  (s.slotOf t).bind fun j => (s.seq.slots[j]).map fun w => (j, w.start)

/-- The poll that a station is sent, taken from the records as they stand (R108). -/
def State.pollFor (s : State) (a : StationId) : Poll :=
  if h : a.val < 32 then
    let t : TrayId := ⟨a.val, h⟩
    { address := a, sent := some ((s.tray t).state, (s.tray t).grant), onBattery := s.onBattery,
      window := if (s.tray t).state == .inrush then s.windowOf t else none }
  else { address := a, sent := none, onBattery := s.onBattery, window := none }

/-- A poll is sent: the outstanding-poll record is filled, the reply timer armed with the reply timeout, and a tray's
last poll fields replaced (R106, R108, R109). -/
def sendPoll (a : StationId) (s : State) : State :=
  let q := s.pollFor a
  let s := if q.sent.isSome then s.setStation a { s.station a with lastPoll := q.sent } else s
  { s with link := { s.link with outstanding := some q, replyTimer := some s.link.replyTimeout } }

/-- RECOVERING ends at the first round end after a warm restart (R32). -/
def recoveringEnds (s : State) : State :=
  let s := { s with acct := { s.acct with mode := .settled } }
  let s := shortfallIfDue s
  let value := s.acct.committed
  let s := if s.isNormal then admissionPass s else s
  let s := s.setAgenda { s.agenda with admission := false, shortfall := false }
  journalise .recovered none (some value) none (opportunity s)

/-- A round end: the counter increments, and the end is reported to the Grant Arbiter and then to the Sequencer (R107). The
admission pass that a hold lifted by the round's last reply calls for is put off to the end of the event (R11, R111). -/
def roundEnd (s : State) : State :=
  let lifted := s.agenda.admission
  let s := s.setAgenda { s.agenda with admission := false }
  let s := { s with link := { s.link with rounds := s.link.rounds + 1 } }
  let s := if s.acct.mode == .recovering then recoveringEnds s else s
  let s := automaticRun (endClaim s)
  if lifted then admissionDue s else s

/-- The poll of an address has ended: at tray 31, whose reply has left nothing due but the lifting of its hold, the round ends;
the event ends; the next poll of the round is sent (R107, R109; log entry 14). -/
def pollEnded (a : StationId) (s : State) : State :=
  let s := if a = 31 then roundEnd s else endClaim s
  sendPoll (nextAddress a) (finish s)

/-! ### Presence (R111, R112) -/

/-- The station's output is enabled: what decides between SILENT and ABSENT (R112). -/
def State.outputEnabled (s : State) (a : StationId) : Bool :=
  if h : a.val < 32 then (s.tray ⟨a.val, h⟩).state.enabled
  else
    match (s.station a).last with
    | some (.rectifier outputOk _ _) => outputOk
    | some (.battery ready _ _ _) => ready
    | _ => false

/-- The reason of a capacity claim that a station forms (R34). -/
def capacityReason (a : StationId) : Reason := if stationKind a = .battery then .battery else .rectifier

/-- A capacity claim is formed when a module's counting or its counted rating has changed (R33, R114). -/
def claimIfChanged (a : StationId) (was : Option Nat) (s : State) : State :=
  if (s.station a).counted == was then s else capacityClaim (some (.station a)) (capacityReason a) s

/-- A miss; the entry of a changed presence comes before those of the capacity claim it forms (R112; log entry 60). -/
def miss (a : StationId) (s : State) : State :=
  let r := s.station a
  let was := r.counted
  let misses := min 3 (r.misses + 1)
  let presence := if misses = 3 then (if s.outputEnabled a then .silent else .absent) else r.presence
  let s := s.setStation a { r with misses := misses, presence := presence }
  let s :=
    if presence == r.presence then s
    else if presence == .silent then
      raise .stationSilent (journalise .stationSilent (some (.station a)) none none s)
    else journalise .stationLost (some (.station a)) none none s
  claimIfChanged a was s

/-- Reports the lifting of a tray's hold: a start opportunity, and a cause for an admission pass when the tray is PARKED in
NORMAL and SETTLED (R11). -/
def holdLifted (t : TrayId) (s : State) : State :=
  let s := opportunity s
  if (s.tray t).state == .parked && s.isNormal && s.isSettled then admissionDue s else s

/-- A QUEUED or PARKED tray that was held and is held no longer (R11). -/
def liftedFrom (wasHeld : Bool) (t : TrayId) (s : State) : Bool :=
  wasHeld && !s.held t && ((s.tray t).state == .queued || (s.tray t).state == .parked)

/-! ### What a tray's reply hands on (R115) -/

/-- A fault report, with the polled state as its expected state (R116). -/
def faultReport (t : TrayId) (polled : TrayState) (s : State) : State :=
  let r := s.tray t
  if r.state != polled then journalise .trayFault (some (.tray t)) none (some .superseded) s
  else
    let s := move t .faulted 0 (some .reported) s
    let s := journalise .trayFault (some (.tray t)) (some r.commitment) (some (.number r.state.code)) s
    admissionDue (raise .trayFault s)

/-- Clears both self-request marks, with the OVER_CAP entry of a change (R42, R44). -/
def clearMarks (t : TrayId) (demand : Option Nat) (s : State) : State :=
  setDeferred t false (setOverCap t false demand s)

/-- A self-request that survives the tests of R42, in SETTLED (R43). -/
def resizeRequest (t : TrayId) (g : Nat) (s : State) : State :=
  let r := s.tray t
  let c := r.commitFor r.state g
  if g == r.grant then setDeferred t false s
  else if g < r.grant || (s.isNormal && s.fits (c - r.commitment)) then
    let s := resizeGrant t g true s
    let s := journalise .selfGrant (some (.tray t)) (some g) none s
    if c < r.commitment then admissionDue s else s
  else setDeferred t true s

/-- A self-request; the part is read with its check before the tests that drop it (log entry 55), and the OVER_CAP entry comes
before the SELF_GRANT entry (R42, R43, R44; log entry 60). -/
def selfRequest (t : TrayId) (polled : TrayState) (demand : Nat) (s : State) : State :=
  if (s.tray t).state != polled then s
  else
    let s := checkRead t s
    let r := s.tray t
    if r.locked || !r.cfg.selfRequest || demand == 0 then clearMarks t (some demand) s
    else
      let s := setOverCap t (decide (r.cfg.cap < demand)) (some demand) s
      let g := min demand r.cfg.cap
      if g == 0 then setDeferred t false s
      else if s.isSettled then resizeRequest t g s
      else setDeferred t true s

/-- A self-start; the part is read with its check before the tests that drop it (R45; log entry 55). -/
def selfStart (t : TrayId) (demand : Nat) (s : State) : State :=
  if (s.tray t).state != .idle then s
  else
    let s := checkRead t s
    let r := s.tray t
    let g := min demand r.cfg.cap
    if r.locked || !r.cfg.selfStart || !s.isNormal || !s.isSettled || s.zoneInLeak r.cfg
        || (s.station (trayStation t)).presence != .present || r.cfg.standing == 0 || g == 0 then s
    else
      let (s, queued) := queueOrPark t g s
      journalise .selfStart (some (.tray t)) (some g) (some (if queued then .queued else .parked)) s

/-- A power-good report, offered to the window that the poll identified (R117). -/
def powerGoodReport (window : Option (SlotId × Nat)) (powerGood : Bool) (s : State) : State :=
  match window with
  | none => s
  | some (j, start) =>
    match s.seq.slots[j] with
    | none => s
    | some w =>
      if w.start != start then s
      else
        let s := s.setSlot j (some { w with report := if powerGood then .good else .notGood })
        if w.window == 3 && powerGood then windowEnd j s else s

/-- Steps 1 to 4 of a valid tray reply, each against the tray as the steps before it left it, each claim with its own
end (R115). -/
def trayHandOn (t : TrayId) (q : Poll) (powerGood fault localLeak : Bool) (demand : Nat) (s : State) : State :=
  let s := if localLeak then { s with leak := { s.leak with reporting := s.leak.reporting.set t true } } else s
  match q.sent with
  | none => s
  | some (polled, _) =>
    let s := if fault && polled.keepsMarks then endClaim (faultReport t polled s) else s
    let s :=
      if polled.keepsMarks then endClaim (selfRequest t polled demand s)
      else if polled == .idle && decide (0 < demand) then endClaim (selfStart t demand s)
      else s
    if polled == .inrush then endClaim (powerGoodReport q.window powerGood s) else s

/-- A valid reply is taken: the last reply fields are replaced, replied is set, misses become 0, the station becomes
PRESENT, and the reply is handed on (R110, R111, R115); a module's STATION_FOUND entry comes before those of its capacity claim
(log entry 60). -/
def takeReply (q : Poll) (reply : Reply) (s : State) : State :=
  let a := q.address
  let r := s.station a
  let was := r.counted
  let wasHeld := if h : a.val < 32 then s.held ⟨a.val, h⟩ else false
  let s := s.setStation a { r with last := some reply, replied := true, misses := 0, presence := .present }
  let s := if r.presence == .present then s
    else journalise .stationFound (some (.station a)) none (some (.number r.presence.code)) s
  if h : a.val < 32 then
    let t : TrayId := ⟨a.val, h⟩
    let lifted := liftedFrom wasHeld t s
    let s := match reply with
      | .tray pg f ll d => trayHandOn t q pg f ll d s
      | _ => s
    if lifted then holdLifted t s else s
  else claimIfChanged a was s

/-- The outstanding poll ends: its record is emptied and the reply timer is idle (R109). -/
def emptyPoll (s : State) : State := { s with link := { s.link with outstanding := none, replyTimer := none } }

/-- A complete frame ends the outstanding poll, as a valid reply or as a miss (R109, R110). -/
def replyReceived (bytes : List Byte) (s : State) : State :=
  match s.link.outstanding, completeFrame bytes with
  | some q, some frame =>
    let s := emptyPoll s
    let s := match validReply q.address frame with
      | some reply => takeReply q reply s
      | none => miss q.address s
    pollEnded q.address s
  | _, _ => s

/-- The reply timer expires before a complete frame (R109). -/
def replyTimedOut (s : State) : State :=
  match s.link.outstanding with
  | some q => pollEnded q.address (miss q.address (emptyPoll s))
  | none => s

end Sys2Proof.Machine
end

