-- ==== Sys2Proof/Machine/LeakMonitor.lean ====
section
/-! DEFINITION. Chapters 5 and 7: classification, zone transitions, LEAK entry, and the census close. -/

namespace Sys2Proof.Machine

/-! ### LEAK entry and isolation (R99, R101) -/

/-- One tray at a zone's LEAK entry: its zone is read with its check, and a tray of the zone, or a locked tray, is isolated
unless FAULTED or ISOLATED (R99). -/
def isolateIfInZone (z : ZoneId) (s : State) (t : TrayId) : State :=
  let s := checkReadIn (some z) t s
  let r := s.tray t
  if r.inZone z && r.state.isolable then isolate z t s else s

/-- How many trays are ISOLATED. -/
def State.isolatedCount (s : State) : Nat := (allTrays.filter fun t => (s.tray t).state == .isolated).length

/-- A zone's valve latch and leak latch, which are written together (R101). -/
def setLatches (z : ZoneId) (v : Bool) (s : State) : State :=
  { s with hold := { s.hold with closed := s.hold.closed.set z v, leakLatch := s.hold.leakLatch.set z v } }

/-- A zone enters LEAK: both latches are set, and every tray of the zone and every locked tray is isolated (R99, R101). The
answer is the number of trays isolated. -/
def enterLeak (z : ZoneId) (s : State) : State × Nat :=
  let s := setLatches z true (s.setZone z { s.zone z with state := .leak })
  let before := s.isolatedCount
  let s := allTrays.foldl (isolateIfInZone z) s
  (s, s.isolatedCount - before)

/-! ### Classification (R93 to R95) -/

/-- What made a zone's classification, the reason of the entries of R98 (R94). -/
inductive LeakSource where
  | rope | trayReport | ropeOpen
  deriving DecidableEq, Repr

/-- The reason code of a source. -/
def LeakSource.reason : LeakSource → Reason
  | .rope => .rope | .trayReport => .trayReport | .ropeOpen => .ropeOpen

/-- The channel of a zone's rope: LEAKz (R121). -/
def zoneChannel (z : ZoneId) : ChannelId := ⟨z.val + 1, by omega⟩

/-- The published maximum of a zone's rope. -/
def State.publishedMax (s : State) (z : ZoneId) : Option Nat := (s.sense.published.channels[zoneChannel z]).maximum

/-- One marked tray: its zone is read with its check, and a tray whose zone is NONE or that is locked makes a TRAY_LEAK
entry and sets LEAK (R94, R95). -/
def readMark (marks : Vector Bool 32) (s : State) (t : TrayId) : State :=
  if marks[t] then
    let s := checkRead t s
    let r := s.tray t
    if r.locked then raise .leak (journalise .trayLeak (some (.tray t)) none (some .leakLocked) s)
    else if r.cfg.zone.isNone then raise .leak (journalise .trayLeak (some (.tray t)) none (some .noZone) s)
    else s
  else s

/-- A marked tray that is not locked and whose zone is z (R94). -/
def State.trayReports (s : State) (marks : Vector Bool 32) (z : ZoneId) : Bool :=
  allTrays.any fun t => marks[t] && !(s.tray t).locked && (s.cfg t).zone == some z

/-- The classification of a zone, the first row of R94 that applies, or none when the zone is not judged. -/
def classify (s : State) (marks : Vector Bool 32) (z : ZoneId) : Option (ZoneClass × LeakSource) :=
  if s.trayReports marks z then some (.wet, .trayReport)
  else if !(s.zone z).enabled then some (.dry, .rope)
  else
    match s.publishedMax z with
    | none => none
    | some m =>
      if s.leak.wet ≤ m then some (.wet, .rope)
      else if m < s.leak.openFloor then some (.opened, .ropeOpen)
      else some (.dry, .rope)

/-! ### Zone transitions (R96 to R98) -/

/-- A judged zone counts as wet: the count rises, and the zone enters LEAK when it reaches the confirm count, or else is
SUSPECT (R96, R97, R98). -/
def countWet (z : ZoneId) (source : LeakSource) (s : State) : State :=
  let r := s.zone z
  let n := if r.state == .opened then 1 else r.wetCount + 1
  let s := s.setZone z { r with wetCount := n }
  if s.leak.confirm ≤ n then
    let (s, isolated) := enterLeak z s
    raise .leak (journalise .leak (some (.zone z)) (some isolated) (some source.reason) s)
  else if r.state == .suspect then s
  else
    let s := s.setZone z { s.zone z with state := .suspect }
    let value := if source == .trayReport then none else s.publishedMax z
    raise .suspectOrOpen (journalise .zoneSuspect (some (.zone z)) value (some source.reason) s)

/-- A zone enters OPEN, or stays there (R96, R97, R98). -/
def becomeOpen (z : ZoneId) (s : State) : State :=
  let r := s.zone z
  let s := s.setZone z { r with state := .opened, wetCount := 0 }
  if r.state == .opened then s
  else raise .suspectOrOpen (journalise .zoneOpen (some (.zone z)) (s.publishedMax z) (some .rope) s)

/-- A zone is DRY; from SUSPECT or OPEN the holds of its trays are lifted (R96, R97, R98, R11). -/
def becomeDry (z : ZoneId) (s : State) : State :=
  let r := s.zone z
  let lifted := allTrays.filter fun t => s.held t
  let s := s.setZone z { r with state := .dry, wetCount := 0 }
  if r.state == .dry then s
  else
    let value := if r.enabled then s.publishedMax z else none
    let s := journalise .zoneDry (some (.zone z)) value (some .rope) s
    lifted.foldl (fun s t => if liftedFrom true t s then holdLifted t s else s) s

/-- A judged classification is stored and applied; a zone in LEAK stays there (R94, R96, R97). -/
def zoneTransition (cls : ZoneClass) (source : LeakSource) (z : ZoneId) (s : State) : State :=
  let s := s.setZone z { s.zone z with lastClass := some cls }
  if (s.zone z).state == .leak then s
  else
    match cls with
    | .wet => countWet z source s
    | .opened => if (s.zone z).openAsLeak then countWet z .ropeOpen s else becomeOpen z s
    | .dry => becomeDry z s

/-- One zone of a close; a zone with no classification is left as it was (R94). -/
def judgeZone (judged : Vector (Option (ZoneClass × LeakSource)) 8) (s : State) (z : ZoneId) : State :=
  match judged[z] with
  | some (cls, source) => zoneTransition cls source z s
  | none => s

/-- The Leak Monitor's part of a close: the marks of the census just closed, the reads of the marked trays, the eight
classifications, handed back to the published bank, and the transitions in zone order (R93 to R99). The marked trays are read in
ascending tray number, all of them with their entries before the first transition (log entry 44). -/
def leakClose (s : State) : State :=
  let marks := s.leak.reporting
  let s := { s with leak := { s.leak with reporting := Vector.replicate 32 false } }
  let s := allTrays.foldl (readMark marks) s
  let judged := Vector.ofFn (classify s marks)
  let s := { s with sense := { s.sense with
    published := { s.sense.published with classes := judged.map (Option.map Prod.fst) } } }
  allZones.foldl (judgeZone judged) s

/-! ### Conversions and the banks (R121 to R125) -/

/-- The largest value of a channel: 65 535 for BUS, 1023 for a leak rope (R121). -/
def channelMax (ch : ChannelId) : Nat := if ch = 0 then 65535 else 1023

/-- A count that stops at 65 535 (R122). -/
def countUp (n : Nat) : Nat := min (n + 1) 65535

/-- A valid result is added to a channel (R122). -/
def Channel.add (v : Nat) (c : Channel) : Channel :=
  { c with
    minimum := some (if c.samples = 0 then v else min v (c.minimum.getD v))
    maximum := some (if c.samples = 0 then v else max v (c.maximum.getD v))
    samples := countUp c.samples }

/-- The end of a conversion: a valid result goes into the filling bank and the last value, an overrange result is counted
apart (R121, R122). A leak code above 1023 lies outside the span (log entry 33). -/
def converted (ch : ChannelId) (result : Option Half) (s : State) : State :=
  let c := s.sense.filling[ch]
  let overrange := { c with overranges := countUp c.overranges }
  match result.bind fun w => within 0 (channelMax ch) w.toNat with
  | some v => { s with sense := { s.sense with
      filling := s.sense.filling.set ch (c.add v), last := s.sense.last.set ch (some (v, s.sense.census)) } }
  | none => { s with sense := { s.sense with filling := s.sense.filling.set ch overrange } }

/-- The Census unit's own steps at a close: the number increments, the filling bank is published with the captured
values, the other bank is emptied and fills, and the replied flags clear; the timer reloads (R124, R125). -/
def publishBank (s : State) : State :=
  let n := s.sense.census + 1
  let captured : Captured :=
    { state := s.hup.state, cold := s.hup.cold, stage := s.hup.stage, timer := s.hup.timer, shelf := s.acct.shelf,
      battery := s.acct.battery, usable := s.acct.usable, committed := s.acct.committed, mode := s.acct.mode }
  { s with
    sense := { s.sense with
      census := n
      published := { census := n, channels := s.sense.filling, classes := Vector.replicate 8 none,
                     captured := some captured }
      filling := Vector.replicate 9 .empty
      fillingBank := s.sense.fillingBank + 1
      timer := some s.sense.interval }
    link := { s.link with stations := s.link.stations.map fun r => { r with replied := false } } }

/-! ### The other consumers of a close (R87, R88, R126, R127) -/

/-- The published minimum of BUS. -/
def State.busMin (s : State) : Option Nat := (s.sense.published.channels[(0 : ChannelId)]).minimum

/-- The published maximum of BUS. -/
def State.busMax (s : State) : Option Nat := (s.sense.published.channels[(0 : ChannelId)]).maximum

/-- The published BUS minimum is below the cutoff; an absent minimum makes no comparison (R87). -/
def State.busBelowCutoff (s : State) : Bool :=
  match s.busMin with
  | some v => v < s.hup.cutoff
  | none => false

/-- The Holdup Controller's tests at a close: the bus cutoff, and a battery capacity of 0 in SETTLED (R87, R88; log entry
25 for a close that meets both). -/
def holdupClose (s : State) : State :=
  if s.onBattery then
    if s.busBelowCutoff then enterDark .busCutoff s
    else if s.acct.battery == 0 && s.isSettled then enterDark .batteryExhausted s
    else s
  else s

/-- One condition of the bus limit check (R127): outside its limit it is set with an entry when it was clear, and the alert
cause is set either way; inside, it clears with an entry when it was set. -/
def busCondition (outside was : Bool) (value : Nat) (entered ended : Reason) (write : Bool → State → State)
    (s : State) : State :=
  if outside then
    let s := if was then s else journalise .busLimit none (some value) (some entered) (write true s)
    raise .busLimit s
  else if was then journalise .busLimit none (some value) (some ended) (write false s)
  else s

/-- The low condition. -/
def setLow (v : Bool) (s : State) : State := { s with sense := { s.sense with low := v } }

/-- The high condition. -/
def setHigh (v : Bool) (s : State) : State := { s with sense := { s.sense with high := v } }

/-- The bus limit check at a close (R127). -/
def busLimitClose (s : State) : State :=
  let s := match s.busMin with
    | some v => busCondition (decide (v < s.sense.warnLimit)) s.sense.low v .low .lowCleared setLow s
    | none => s
  match s.busMax with
  | some v => busCondition (decide (s.sense.overLimit < v)) s.sense.high v .high .highCleared setHigh s
  | none => s

/-- A census close with all its consequences; last of all the ports release their routine flags (R125, R126, R146; log
entry 25 for the order of the consumers). -/
def censusClosed (s : State) : State :=
  let s := busLimitClose (holdupClose (leakClose (publishBank s)))
  (finish s).mapPorts PortRec.releaseAll

/-! ### CLEAR_ZONE (R102, R103) -/

/-- One tray returned to IDLE by CLEAR_ZONE: an ISOLATED tray of the zone that is not locked, or a locked one when no zone
remains in LEAK (R102, R103). -/
def returnTray (z : ZoneId) (lockedToo : Bool) (s : State) (t : TrayId) : State :=
  let r := s.tray t
  if r.state == .isolated && (if r.locked then lockedToo else r.cfg.zone == some z) then moveBare t .idle 0 none s else s

/-- The effect of an accepted CLEAR_ZONE; the answer is the number of trays returned to IDLE (R102). -/
def clearZoneEffect (p : Port) (z : ZoneId) (s : State) : State × Nat :=
  let s := setLatches z false (s.setZone z { s.zone z with state := .dry, wetCount := 0 })
  let before := s.isolatedCount
  let none_ := s.leakZones.isEmpty
  let s := allTrays.foldl (returnTray z false) s
  let s := if none_ then
      allTrays.foldl (fun s t => if (s.tray t).locked then returnTray z true s t else s) s
    else s
  let n := before - s.isolatedCount
  (journalise .zoneClear (some (.zone z)) (some n) (some (.number (portCode p))) s, n)

end Sys2Proof.Machine
end

