-- ==== Sys2Proof/Machine/Payloads.lean ====
section
/-! DEFINITION. Chapter 12: the payloads of the responses, field by field in the order their rules name (R162, R163, R165;
log entry 26 for what no layout fixes). -/

namespace Sys2Proof.Machine

/-! ### Codes of fields -/

/-- A zone parameter's byte: 0x0F for NONE (R163). -/
def zoneByte (z : Option ZoneId) : Byte := match z with | some z => byte z.val | none => 0x0F

/-- The flags byte of SET_TRAY (R163). -/
def TrayConfig.flagByte (c : TrayConfig) : Byte := flags [c.selfRequest, c.selfStart, c.unattended]

/-- A classification's byte, 0xFF when absent (R165). -/
def classByte (c : Option ZoneClass) : Byte := optByte (c.map fun k => byte k.code)

/-- A per-zone set in one byte, bit z for zone z (R165). -/
def zoneSet (f : ZoneId → Bool) : Byte := flags (allZones.map f)

/-- How many trays satisfy a test. -/
def countTrays (f : TrayId → Bool) : Nat := (allTrays.filter f).length

/-- The tray states in code order (R166). -/
def trayStates : List TrayState := [.idle, .queued, .inrush, .run, .parked, .isolated, .faulted]

/-- Counts per tray state, in code order (R165). -/
def State.stateCounts (s : State) (among : TrayId → Bool) : List Byte :=
  trayStates.map fun st => byte (countTrays fun t => among t && (s.tray t).state == st)

/-! ### Tray records (R8, R40, R41, R141) -/

/-- A tray record as READ_TRAY returns it, 24 bytes (R8, R165); of a locked tray the fields as stored (log entry 61). -/
def State.trayPayload (s : State) (t : TrayId) : List Byte :=
  let r := s.tray t
  let c := r.cfg
  [byte t.val, byte c.cls.val, zoneByte c.zone] ++ nat2 c.inrush ++ nat2 c.standing ++ nat2 c.cap
    ++ [byte c.window.val, byte c.tries, c.flagByte, byte r.state.code] ++ nat2 r.grant ++ nat2 r.commitment
    ++ [r.revision, byte r.triesLeft, optByte (r.faultCause.map fun f => byte f.code),
        flags [r.adopted, r.deferred, r.overCap, r.locked], byte (s.key t),
        flags [s.heldByZone t, s.heldByStation t, r.locked], optByte ((s.slotOf t).map fun j => byte j.val)]

/-- The content of a response to GRANT: state, grant, commitment and revision, and the headroom (R40; log entry 30). -/
def State.grantPayload (s : State) (t : TrayId) : List Byte :=
  let r := s.tray t
  [byte r.state.code] ++ nat2 r.grant ++ nat2 r.commitment ++ [r.revision] ++ nat3 s.headroom

/-! ### Stations and zones (R104, R119) -/

/-- The argument of Config.stationKindCode. -/
def StationKind.index : StationKind → Nat
  | .tray => 0 | .rectifier => 1 | .battery => 2

/-- What READ_STATION adds for a station's kind: a module's derived state and whether its rating is counted; a tray's last
poll and whether a poll to it is outstanding (R119). -/
def State.stationExtra (s : State) (a : StationId) : List Byte :=
  let r := s.station a
  match stationKind a with
  | .tray =>
    [optByte (r.lastPoll.map fun q => byte q.1.code)] ++ optNat2 (r.lastPoll.map Prod.snd)
      ++ [flag (s.link.outstanding.any fun q => q.address == a)]
  | .rectifier => [byte r.derived.rectifierCode, flag r.counted.isSome]
  | .battery => [byte r.derived.batteryCode, flag r.counted.isSome]

/-- A station record as READ_STATION returns it, misses in one byte (R119; log entry 48). -/
def State.stationPayload (s : State) (a : StationId) : List Byte :=
  let r := s.station a
  [Config.stationKindCode (stationKind a).index, byte r.presence.code, byte r.misses, flag r.replied]
    ++ replyBody (stationKind a) r.last ++ s.stationExtra a ++ bytes2 s.link.rounds

/-- A zone record: the fields of R91 in their order, wet_count in one byte (log entry 48), the valve and the leak latch as the
hold domain holds them, 1 for a closed valve (log entry 56). -/
def State.zoneRecord (s : State) (z : ZoneId) : List Byte :=
  let r := s.zone z
  [byte r.state.code, byte r.wetCount, classByte r.lastClass, flag r.enabled, flag r.openAsLeak,
   flag s.hold.closed[z], flag s.hold.leakLatch[z]]

/-- What READ_ZONE returns (R104): a locked tray counts as a tray of every zone, but its mark in the reporting set is no zone's
(R21, R94; log entry 20). The published maximum takes two bytes (log entry 48). -/
def State.zonePayload (s : State) (z : ZoneId) : List Byte :=
  let member := fun t => (s.tray t).inZone z
  s.zoneRecord z ++ nat2 s.leak.wet ++ nat2 s.leak.openFloor ++ [byte s.leak.confirm] ++ optNat2 (s.publishedMax z)
    ++ [flag (s.trayReports s.leak.reporting z)] ++ s.stateCounts member
    ++ [byte (if (s.zone z).holds then countTrays member else 0)]

/-! ### The plan (R54, R58) -/

/-- An active entry's byte: the tray number, with bit 7 when its check fails, and 0xFF past the plan length (R165). -/
def planByte (e : Option PlanEntry) : Byte :=
  match e with
  | some e => byte (e.tray.val + if e.code == .failing then 128 else 0)
  | none => 0xFF

/-- A staging position's byte: the tray number, bit 6 for empty, bit 7 for a bad mark (R165); an empty one has 0 in bits 0 to 4
(log entry 52). -/
def StagePos.byte (q : StagePos) : Byte :=
  Machine.byte ((match q.tray with | some t => t.val | none => 64) + if q.bad then 128 else 0)

/-- READ_PLAN part 0, 37 bytes (R58, R165). -/
def State.planPart0 (s : State) (p : Port) : List Byte :=
  let g := s.seq.staging
  [s.seq.planRev, byte s.seq.plan.length, byte (holderCode g.holder)]
    ++ (if g.holder == some p then [byte g.length, byte g.pointer.val] else [0xFF, 0xFF])
    ++ (List.range 32).map fun i => planByte s.seq.plan[i]?

/-- READ_PLAN part 1, 34 bytes (R58, R165). -/
def State.planPart1 (s : State) (p : Port) : List Byte :=
  let g := s.seq.staging
  [s.seq.planRev, byte (holderCode g.holder)]
    ++ if g.holder == some p then g.positions.toList.map StagePos.byte else List.replicate 32 0xFF

/-- The positions of the staging that carry a bad mark, in ascending order (R54; log entry 28). -/
def Staging.badPositions (g : Staging) : List Byte :=
  ((List.finRange 32).filter fun i => g.positions[i].bad).map fun i => byte i.val

/-! ### READ_STATUS (R51, R73, R119, R121, R139, R165) -/

/-- The trap: bit 0 latched, bit 1 kind PLAN, bit 2 more; then its index, absent when it is empty (R19, R165; log entry 53). -/
def Trap.payload (r : Trap) : List Byte :=
  match r.latched with
  | none => [flags [false, false, r.more], 0xFF]
  | some (.tray t) => [flags [true, false, r.more], byte t.val]
  | some (.plan i) => [flags [true, true, r.more], byte i]

/-- The five sums of the account, three bytes each (R51). -/
def State.sums (s : State) : List Byte :=
  nat3 s.acct.shelf ++ nat3 s.acct.battery ++ nat3 s.acct.usable ++ nat3 s.acct.committed ++ nat3 s.headroom

/-- How many stations satisfy a test. -/
def State.countStations (s : State) (f : Station → Bool) : Nat := (s.link.stations.toList.filter f).length

/-- How many modules of a list count toward a capacity. -/
def State.countedAmong (s : State) (as : List StationId) : Nat := (s.ratings as).length

/-- READ_STATUS part 0, 32 bytes. -/
def State.status0 (s : State) : List Byte :=
  bytes2 s.sense.census ++ s.sums
    ++ [byte s.acct.mode.code, flags [s.acct.redundancy, s.acct.autoRestart], byte (s.countedAmong rectifiers),
        byte (s.countedAmong batteries), byte s.queue.length, byte s.park.length]
    ++ s.stateCounts (fun _ => true) ++ s.trap.payload

/-- A slot's five bytes; every field of a free slot is absent (R63, R165; log entry 53). -/
def slotBytes (w : Option Slot) : List Byte :=
  match w with
  | some v => [byte v.tray.val, byte v.window.val] ++ nat2 v.length ++ [byte v.report.code]
  | none => [0xFF, 0xFF, 0xFF, 0xFF, 0xFF]

/-- The zone states, two bits per zone, zone 0 lowest (R165). -/
def State.zoneStates (s : State) : List Byte :=
  nat2 (allZones.foldr (fun z n => (s.zone z).state.code + 4 * n) 0)

/-- READ_STATUS part 1, 38 bytes. -/
def State.status1 (s : State) : List Byte :=
  bytes2 s.sense.census
    ++ [byte s.hup.state.code, flags [s.hup.cold, s.hup.qualified], byte (Stage.code s.hup.stage)]
    ++ int2 s.hup.timer ++ nat2 s.hup.total ++ optNat2 s.hup.qualTimer ++ nat2 s.hup.lastElapsed
    ++ bytes2 s.hup.episodes ++ s.zoneStates ++ [zoneSet fun z => s.hold.closed[z]]
    ++ s.seq.slots.toList.flatMap slotBytes

/-- A rectifier that is PRESENT with ac_ok set (R113). -/
def Station.acPresent (r : Station) : Bool :=
  match r.presence, r.last with
  | .present, some (.rectifier _ acOk _) => acOk
  | _, _ => false

/-- The reset cause: bit 0 POWER_ON, bit 1 SUPPLY_DIP, bit 2 RESET_PIN (R165). -/
def ResetCause.byte : ResetCause → Byte
  | .powerOn => flags [true, false, false]
  | .warm dip pin => flags [false, dip, pin]

/-- READ_STATUS part 2, 16 bytes. -/
def State.status2 (s : State) : List Byte :=
  bytes2 s.sense.census
    ++ [byte (s.countStations Station.acPresent), byte (s.countStations (·.presence == .absent)),
        byte (s.countStations (·.presence == .present)), byte (s.countStations (·.presence == .silent)),
        byte (s.countStations (·.replied))]
    ++ bytes2 s.link.rounds
    ++ [flags [s.sense.low, s.sense.high], s.hold.cause.byte, byte s.hold.adopted, byte s.hold.restored,
        byte s.hold.result.code, flag s.seq.autoDue, s.seq.planRev]

/-- READ_STATUS part 3, 38 bytes. -/
def State.status3 (s : State) : List Byte :=
  bytes2 s.sense.census
    ++ s.sense.last.toList.flatMap fun v => optNat2 (v.map Prod.fst) ++ optNat2 (v.map fun x => x.2.toNat)

/-- A part of READ_STATUS, or none for a part above 3 (R139). -/
def State.statusPart (s : State) (part : Byte) : Option (List Byte) :=
  match part.toNat with
  | 0 => some s.status0
  | 1 => some s.status1
  | 2 => some s.status2
  | 3 => some s.status3
  | _ => none

/-! ### READ_SNAPSHOT (R128, R165) -/

/-- The captured values of a bank; all 0 when it carries none (R162, R165). -/
def capturedBytes (c : Option Captured) : List Byte :=
  match c with
  | some c =>
    [1, byte (c.state.code + if c.cold then 128 else 0), byte (Stage.code c.stage)] ++ int2 c.timer ++ nat3 c.shelf
      ++ nat3 c.battery ++ nat3 c.usable ++ nat3 c.committed ++ [byte c.mode.code]
  | none => List.replicate 18 0

/-- A leak channel's six bytes: minimum with maximum, and samples with overranges, as packed pairs (R165). -/
def leakChannelBytes (c : Channel) : List Byte :=
  packed (c.minimum.getD 0) (c.maximum.getD 0) ++ packed c.samples c.overranges

/-- BUS: minimum, maximum, and samples with overranges as a packed pair (R165). -/
def busChannelBytes (c : Channel) : List Byte :=
  nat2 (c.minimum.getD 0) ++ nat2 (c.maximum.getD 0) ++ packed c.samples c.overranges

/-- A part of READ_SNAPSHOT, or none for a part above 2 (R128). -/
def Published.part (b : Published) (part : Byte) : Option (List Byte) :=
  let leak := fun z : ZoneId => leakChannelBytes b.channels[zoneChannel z]
  match part.toNat with
  | 0 => some (bytes2 b.census ++ capturedBytes b.captured ++ b.classes.toList.map classByte)
  | 1 => some (bytes2 b.census ++ busChannelBytes b.channels[(0 : ChannelId)] ++ leak 0 ++ leak 1 ++ leak 2 ++ leak 3)
  | 2 => some (bytes2 b.census ++ leak 4 ++ leak 5 ++ leak 6 ++ leak 7)
  | _ => none

/-! ### Ports (R137, R148, R150) -/

/-- Flags, released marks, masks and the line state (R148, R165). -/
def PortRec.alertPayload (r : PortRec) : List Byte :=
  bytes2 r.flags ++ bytes2 r.released ++ bytes2 r.enable ++ bytes2 r.urgent ++ [flag r.lineAsserted]

/-- The lease state, and its term and remaining time when LIVE (R137, R165; log entry 27). -/
def PortRec.leasePayload (r : PortRec) : List Byte :=
  match r.lease with
  | some l => [1] ++ nat2 l.term ++ nat3 l.remaining
  | none => [0]

/-- What READ_JOURNAL returns: the number of entries taken, the gap flag as it stood, the unread count after the move, and
the entries (R150, R165). -/
def journalPayload (taken : List Entry) (gap : Bool) (unread : Nat) : List Byte :=
  [byte taken.length, flag gap, byte unread] ++ taken.flatMap Entry.bytes

/-! ### Settings (R35, R60, R142) -/

/-- The shelf settings and the account (R35, R141). -/
def State.shelfPayload (s : State) : List Byte :=
  [flag s.acct.redundancy, flag s.acct.autoRestart] ++ s.sums ++ [byte s.acct.mode.code]

/-- The settings of SET_LIMITS, laid out as its request (R142, R165). -/
def State.limitsPayload (s : State) : List Byte :=
  nat2 s.leak.wet ++ nat2 s.leak.openFloor
    ++ [byte s.leak.confirm, zoneSet fun z => (s.zone z).enabled, zoneSet fun z => (s.zone z).openAsLeak]
    ++ nat2 s.sense.warnLimit ++ nat2 s.sense.overLimit ++ nat2 s.hup.cutoff

/-- The settings of SET_TIMING, laid out as its request (R142, R165). -/
def State.timingPayload (s : State) : List Byte :=
  [byte s.seq.paceMode.code] ++ nat2 s.seq.paceInterval ++ [byte s.seq.k] ++ nat2 s.seq.w0 ++ nat2 s.seq.w1
    ++ nat2 s.seq.w2 ++ nat2 s.hup.s1 ++ nat2 s.hup.s2 ++ nat2 s.hup.s3 ++ nat2 s.hup.qualification
    ++ [byte s.link.replyTimeout] ++ nat2 s.sense.interval

/-- The counts of a plan run and the headroom after it (R60). -/
def State.runPayload (s : State) (n : RunCounts) : List Byte :=
  [byte n.queued, byte n.parked, byte n.skipped] ++ nat3 s.headroom

end Sys2Proof.Machine
end

