-- ==== Sys2Proof/Machine/SupplyReset.lean ====
section
/-! DEFINITION. Chapter 10: the configuration image, the end of a reset as a POWER_ON start or a warm restart, and the
supply and RESET_N edges. -/

namespace Sys2Proof.Machine

/-! ### The configuration image (R157, R158) -/

/-- The image as the records and the settings now stand, every code as stored (R157, R158). -/
def State.capture (s : State) : Image :=
  { trays := s.trays.map fun r => (r.cfg, r.code)
    plan := s.seq.plan.map fun e => (e.tray, e.code)
    interval := s.sense.interval
    paceMode := s.seq.paceMode, paceInterval := s.seq.paceInterval, k := s.seq.k
    w0 := s.seq.w0, w1 := s.seq.w1, w2 := s.seq.w2
    qualification := s.hup.qualification, s1 := s.hup.s1, s2 := s.hup.s2, s3 := s.hup.s3
    replyTimeout := s.link.replyTimeout
    redundancy := s.acct.redundancy, autoRestart := s.acct.autoRestart
    wet := s.leak.wet, openFloor := s.leak.openFloor, confirm := s.leak.confirm
    zones := s.leak.zones.map fun z => (z.enabled, z.openAsLeak)
    warnLimit := s.sense.warnLimit, overLimit := s.sense.overLimit, cutoff := s.hup.cutoff
    enableA := s.portA.enable, urgentA := s.portA.urgent, enableB := s.portB.enable, urgentB := s.portB.urgent }

/-- Every field of an image is taken: the configuration parts with their codes, the plan with the keys built from it, the
settings and the alert masks (R1, R9, R53, R145, R157). -/
def State.load (img : Image) (s : State) : State :=
  { s with
    trays := img.trays.map fun c => Tray.fresh c.1 c.2
    acct := { s.acct with redundancy := img.redundancy, autoRestart := img.autoRestart }
    seq := { s.seq with
      plan := img.plan.map fun e => { tray := e.1, code := e.2, reported := false }
      keys := planKeys (img.plan.map Prod.fst)
      paceMode := img.paceMode, paceInterval := img.paceInterval, k := img.k
      w0 := img.w0, w1 := img.w1, w2 := img.w2 }
    hup := { s.hup with
      s1 := img.s1, s2 := img.s2, s3 := img.s3, qualification := img.qualification, cutoff := img.cutoff }
    leak := { s.leak with
      zones := img.zones.map fun z =>
        { state := .dry, wetCount := 0, lastClass := none, enabled := z.1, openAsLeak := z.2 }
      wet := img.wet, openFloor := img.openFloor, confirm := img.confirm }
    link := { s.link with replyTimeout := img.replyTimeout }
    sense := { s.sense with interval := img.interval, warnLimit := img.warnLimit, overLimit := img.overLimit }
    portA := { s.portA with enable := img.enableA, urgent := img.urgentA }
    portB := { s.portB with enable := img.enableB, urgent := img.urgentB } }

/-- The store result of a load: DEFAULTS when the image fails its check (R157). -/
def Store.result (st : Store) : StoreResult := if st.image.isSome then .loaded else .defaults

/-! ### The core stopped, and begun afresh -/

/-- The core stops: every core record and any store write in progress end; the queue of commands, the hold domain, the
pins and the stored image remain (R154, R155, R159; log entry 7). -/
def stopCore (s : State) : State :=
  State.fresh s.pending { s.store with writing := none } s.hold { s.sup with held := true } s.draws

/-- The core afresh with the image loaded, or the defaults when the image fails its check (R157). -/
def loadedCore (s : State) : State :=
  (State.fresh s.pending { s.store with writing := none } s.hold { s.sup with held := false } s.draws).load
    (s.store.image.getD Image.default)

/-- What begins when the part leaves reset: the first round with the poll of address 32, and the census timer (R107,
R124). -/
def beginService (s : State) : State :=
  sendPoll 32 { s with sense := { s.sense with timer := some s.sense.interval } }

/-- The start of the core after a POWER_ON (R73, R153). -/
def powerOnStart (s : State) : State :=
  let r := loadedCore s
  beginService { r with
    hold := { r.hold with adopted := 0, restored := 0, result := s.store.result }
    hup := if r.sup.pfailAsserted then { r.hup with state := .dark, cold := false }
           else { r.hup with state := .regain, cold := true, qualTimer := some r.hup.qualification } }

/-! ### The warm restart (R160, R161) -/

/-- One tray of the adoption, which sets the state directly and is no claim (R5): a tray found with its enable latch on is read with
its check and enters RUN, adopted, at its standing grant, or at grant 0 with no tries left when the read locks it (R160 step 2). -/
def adopt (s : State) (t : TrayId) : State :=
  if s.hold.enable[t] then
    let s := checkRead t s
    let r := s.tray t
    let g := if r.locked then 0 else r.cfg.standing
    s.putTray t { r with
      state := .run, grant := g, commitment := g, adopted := true,
      triesLeft := if r.locked then 0 else r.triesLeft }
  else s

/-- One zone of the restored leaks: a zone whose leak latch is set enters LEAK and its trays and every locked tray are
isolated (R160 step 3). -/
def restoreLeak (s : State) (z : ZoneId) : State :=
  if s.hold.leakLatch[z] then
    allTrays.foldl (isolateIfInZone z)
      (s.setZone z { s.zone z with state := .leak, wetCount := 0, lastClass := none })
  else s

/-- How many trays are in RUN. -/
def State.runCount (s : State) : Nat := (allTrays.filter fun t => (s.tray t).state == .run).length

/-- The holdup state chosen at a warm restart from PFAIL_N and the adopted count (R161). -/
def chooseHoldup (s : State) : State :=
  if !s.sup.pfailAsserted then s.setHup { s.hup with state := .normal }
  else if s.runCount = 0 then s.setHup { s.hup with state := .dark }
  else beginEpisode (s.setHup { s.hup with state := .holdup })

/-- The set-up of a warm restart, one event that makes no journal entry, sets no alert cause and owes nothing at its end (R160,
R161). Every revision begins at 0 and an isolation of step 3 increments it (R99; log entry 37). The trays are adopted in
ascending tray number, so the first failing part of lowest number is the one the trap latches (log entry 45). -/
def warmStart (s : State) : State :=
  let loaded := loadedCore s
  let s1 := { loaded with acct := { loaded.acct with mode := .recovering } }
  let s2 := allZones.foldl restoreLeak (allTrays.foldl adopt s1)
  let s3 := setUsable (chooseHoldup s2)
  beginService { s3 with
    journal := loaded.journal
    portA := loaded.portA
    portB := loaded.portB
    agenda := .none
    hold := { s3.hold with adopted := s2.runCount, restored := s2.leakZones.length, result := s.store.result } }

/-- The reset ends: a POWER_ON start, or a warm restart, by the cause the record holds (R153, R154, R155). -/
def endReset (s : State) : State :=
  match s.hold.cause with
  | .powerOn => powerOnStart s
  | .warm _ _ => warmStart s

/-- The first moment at which RESET_N is deasserted, both supplies are up and no start delay is running ends the reset
(R155). -/
def Supply.resetCanEnd (u : Supply) : Bool := u.held && u.vstby && u.vcore && !u.resetAsserted && u.startDelay.isNone

/-- Ends the reset when it can end. -/
def endResetIfDue (s : State) : State := if s.sup.resetCanEnd then endReset s else s

/-! ### The edges (R152 to R156) -/

/-- A cause is added to the record: the set begins afresh when the core was running, accumulates while it is held, and a
record that holds POWER_ON keeps it (R156; log entry 10). -/
def addCause (running dip pin : Bool) (c : ResetCause) : ResetCause :=
  if running then .warm dip pin
  else
    match c with
    | .powerOn => .powerOn
    | .warm d p => .warm (d || dip) (p || pin)

/-- The core stops for a cause of a warm restart, or goes on being held (R154, R155). -/
def holdFor (dip pin : Bool) (s : State) : State :=
  let s := { s with hold := { s.hold with cause := addCause (!s.sup.held) dip pin s.hold.cause } }
  if s.sup.held then s else stopCore s

/-- VSTBY rises: the hold domain starts afresh with cause POWER_ON and the core is held; with VCORE already up the start
delay is armed (R152, R153; log entries 9 and 11). -/
def vstbyRisen (s : State) : State :=
  if s.sup.vstby then s
  else
    let s := stopCore s
    { s with
      hold := .fresh
      sup := { s.sup with vstby := true, startDelay := if s.sup.vcore then some Config.startDelayMs else none } }

/-- VSTBY falls: the hold domain is lost and the core stops (R152; log entry 8). -/
def vstbyFallen (s : State) : State :=
  if s.sup.vstby then
    let s := stopCore s
    { s with hold := .fresh, sup := { s.sup with vstby := false, startDelay := none } }
  else s

/-- VCORE falls: SUPPLY_DIP is added, the core stops, and a running start delay is cancelled (R154, R156). -/
def vcoreFallen (s : State) : State :=
  if s.sup.vcore then
    let s := holdFor true false s
    { s with sup := { s.sup with vcore := false, startDelay := none } }
  else s

/-- VCORE recovers: the start delay is armed for its full length (R153, R154). -/
def vcoreRecovered (s : State) : State :=
  if s.sup.vcore then s
  else { s with sup := { s.sup with
    vcore := true, startDelay := if s.sup.vstby then some Config.startDelayMs else none } }

/-- The start delay expires; the reset ends unless RESET_N is still asserted (R154, R155). -/
def startDelayExpired (s : State) : State :=
  if s.sup.startDelay.isSome then endResetIfDue { s with sup := { s.sup with startDelay := none } } else s

/-- RESET_N is asserted: RESET_PIN is added and the core stops (R155, R156). -/
def resetAsserted (s : State) : State :=
  if s.sup.resetAsserted then s
  else
    let s := holdFor false true s
    { s with sup := { s.sup with resetAsserted := true } }

/-- RESET_N is deasserted: the reset ends, provided VCORE is up and no start delay is running (R155). -/
def resetDeasserted (s : State) : State :=
  if s.sup.resetAsserted then endResetIfDue { s with sup := { s.sup with resetAsserted := false } } else s

end Sys2Proof.Machine
end

