-- ==== Sys2Proof/Machine/PortCore.lean ====
section
/-! DEFINITION. Chapter 8: how a port takes a request and answers it, its lease, and the release of the staging. -/

namespace Sys2Proof.Machine

/-- What a request's own rule answers: a status and a payload (R135). -/
structure Answer where
  status : Status
  payload : List Byte
  deriving DecidableEq, Repr

/-- The response is in the buffer and the port READY (R131). -/
def respond (p : Port) (tag : Byte) (a : Answer) (s : State) : State :=
  s.setPort p { s.port p with
    state := .ready, response := some { status := a.status, tag := tag, payload := a.payload }, execTag := none }

/-- A request reaches a port. A held core takes nothing (log entry 6); a port that is EXECUTING refuses the write and sets
its PORT_OVERRUN (R132); a command that needs a lease is refused without one (R134 step 4); otherwise the request is
taken. -/
def portTake (p : Port) (tag : Byte) (needsLease : Bool) (body : State → State) (s : State) : State :=
  if s.sup.held then s
  else if (s.port p).state == .executing then raiseOverrun p s
  else if needsLease && (s.port p).lease.isNone then respond p tag { status := .noLease, payload := [] } s
  else body s

/-- A request that is executed within the event in which it is taken (R131, R136). -/
def takeRequest (p : Port) (tag : Byte) (needsLease : Bool) (body : State → State × Answer) (s : State) : State :=
  portTake p tag needsLease (fun s => let (s, a) := body s; respond p tag a s) s

/-- A refusal with no content and no effect (R135). -/
def refuse (st : Status) (s : State) : State × Answer := (s, { status := st, payload := [] })

/-- The end of a request's event, with an answer built from the records after every pass (R136). -/
def answerAfter (st : Status) (payload : State → List Byte) (s : State) : State × Answer :=
  let s := finish s
  (s, { status := st, payload := payload s })

/-- An acceptance whose payload shows the records as they stand, with nothing owed. -/
def answerNow (payload : List Byte) (s : State) : State × Answer := (s, { status := .ok, payload := payload })

/-! ### Leases and the staging (R57, R137, R138) -/

/-- A port's lease. -/
def setLease (p : Port) (l : Option Lease) (s : State) : State := s.setPort p { s.port p with lease := l }

/-- A lease of a term in seconds with its timer at the full term. -/
def Lease.full (term : Nat) : Lease := { term := term, remaining := 1000 * term }

/-- The holder becomes NONE and the positions are set empty (R56, R57; log entry 29 for length and pointer). -/
def clearStaging (s : State) : State :=
  { s with seq := { s.seq with staging := { s.seq.staging with
    positions := Vector.replicate 32 { tray := none, bad := false }, holder := none } } }

/-- The staging held by a port is released without a commit; the entry has the port as subject for either reason (R57;
log entry 57). -/
def discardStaging (p : Port) (reason : Reason) (s : State) : State :=
  if s.seq.staging.holder == some p then
    journalise .planDiscard (some (.port p)) none (some reason) (clearStaging s)
  else s

/-- The lease timer of a port expires: the lease lapses, LEASE_LAPSED is set on both ports, and any staging the port holds is
discarded (R138). A port without a live lease has no timer running. -/
def leaseLapse (p : Port) (s : State) : State :=
  if s.sup.held || (s.port p).lease.isNone then s
  else
    let s := setLease p none s
    let s := raise .leaseLapsed (journalise .leaseLapsed (some (.port p)) none none s)
    discardStaging p .leaseEnded s

end Sys2Proof.Machine
end

