-- ==== Sys2Proof/Machine/PlanRequests.lean ====
section
/-! DEFINITION. The requests that edit, commit and discard the plan staging (R53 to R57). -/

namespace Sys2Proof.Machine

/-- The staging as an accepted PLAN_OPEN leaves it: each active entry copied to the position of its number, with a bad mark
where its check fails, and the rest empty (R54). -/
def openStaging (p : Port) (plan : List PlanEntry) : Staging :=
  { positions := Vector.ofFn fun i : Fin 32 =>
      match plan[i.val]? with
      | some e => { tray := some e.tray, bad := e.code == .failing }
      | none => { tray := none, bad := false }
    length := plan.length, pointer := 0, holder := some p }

/-- The staging copy. -/
def setStaging (g : Staging) (s : State) : State := { s with seq := { s.seq with staging := g } }

/-- PLAN_OPEN: the code of each active entry is tested as it is copied into the staging (R20, R54). -/
def planOpenRequest (p : Port) (tag rev : Byte) : State → State :=
  takeRequest p tag true fun s =>
    if rev ≠ s.seq.planRev then refuse .stale s
    else if s.seq.staging.holder.any (· != p) then refuse .stagingHeld s
    else
      let s := reportEntries s
      let g := openStaging p s.seq.plan
      let s := journalise .planOpen (some (.port p)) none none (setStaging g s)
      answerNow ([s.seq.planRev, byte g.length] ++ g.badPositions) s

/-- An edit of the staging by its holder: STATE for any other port, RANGE where the edit has none, and otherwise the new
staging with its pointer and length in the response (R55, R141). -/
def editStaging (p : Port) (tag : Byte) (f : Staging → Option Staging) : State → State :=
  takeRequest p tag true fun s =>
    if s.seq.staging.holder != some p then refuse .state s
    else
      match f s.seq.staging with
      | none => refuse .range s
      | some g => answerNow [byte g.pointer.val, byte g.length] (setStaging g s)

/-- PLAN_POINT: the pointer is set (R55). -/
def planPointRequest (p : Port) (tag position : Byte) : State → State :=
  editStaging p tag fun g => (trayOf position).map fun i => { g with pointer := i }

/-- PLAN_PUT: the position at the pointer takes the tray number and loses any bad mark, and the pointer advances by one, from
31 to 0 (R55). -/
def planPutRequest (p : Port) (tag tray : Byte) : State → State :=
  editStaging p tag fun g => (trayOf tray).map fun t =>
    { g with positions := g.positions.set g.pointer { tray := some t, bad := false }, pointer := g.pointer + 1 }

/-- PLAN_LENGTH: the staging length is set (R55). -/
def planLengthRequest (p : Port) (tag length : Byte) : State → State :=
  editStaging p tag fun g => (within 0 32 length.toNat).map fun n => { g with length := n }

/-- The positions that a commit judges: those below the staging length, in order (R56). -/
def Staging.judged (g : Staging) : List StagePos := g.positions.toList.take g.length

/-- The lowest judged position that is empty or carries a bad mark (R56). -/
def Staging.badPosition (g : Staging) : Option Nat := g.judged.findIdx? fun q => q.tray.isNone || q.bad

/-- The trays of the judged positions, in order. -/
def Staging.trays (g : Staging) : List TrayId := g.judged.filterMap StagePos.tray

/-- The lowest index of a list whose member appears at an earlier one. -/
def firstRepeat (ts : List TrayId) : Option Nat :=
  (List.range ts.length).find? fun i => (ts[i]?).any fun t => (ts.take i).contains t

/-- An accepted PLAN_COMMIT: the judged trays become the active plan with codes computed afresh, the plan revision
increments, the keys are rebuilt and the collections re-sorted, and the staging is released (R56). -/
def commitTaken (p : Port) (s : State) : State :=
  let ts := s.seq.staging.trays
  let rev := s.seq.planRev + 1
  let s := { s with seq := { s.seq with
    plan := ts.map fun t => { tray := t, code := .matching, reported := false }
    planRev := rev
    keys := planKeys ts } }
  let s := clearStaging (resort s)
  journalise .planCommit (some (.port p)) (some rev.toNat) none s

/-- PLAN_COMMIT (R56). -/
def planCommitRequest (p : Port) (tag : Byte) : State → State :=
  takeRequest p tag true fun s =>
    if s.seq.staging.holder != some p then refuse .state s
    else
      match s.seq.staging.badPosition, firstRepeat s.seq.staging.trays with
      | some i, _ => (s, { status := .range, payload := [byte i] })
      | none, some i => (s, { status := .duplicate, payload := [byte i] })
      | none, none => answerAfter .ok (fun _ => []) (commitTaken p s)

/-- PLAN_ABORT (R57). -/
def planAbortRequest (p : Port) (tag : Byte) : State → State :=
  takeRequest p tag true fun s =>
    if s.seq.staging.holder != some p then refuse .state s
    else answerNow [] (discardStaging p .aborted s)

end Sys2Proof.Machine
end

