-- ==== Sys2Proof/Machine/ReadRequests.lean ====
section
/-! DEFINITION. The read requests, the alert requests and the lease requests (R137, R139, R140, R148). -/

namespace Sys2Proof.Machine

/-- Each tray's configuration part is read with its check, in ascending tray number (log entry 15). -/
def readAll (s : State) : State := allTrays.foldl (fun s t => checkRead t s) s

/-! ### Reads -/

/-- READ_STATUS (R139). -/
def statusRequest (p : Port) (tag part : Byte) : State → State :=
  takeRequest p tag false fun s =>
    match s.statusPart part with
    | some bytes => answerNow bytes s
    | none => refuse .range s

/-- READ_TRAY: the read of the configuration part may lock the tray within the request (R8). -/
def trayRequest (p : Port) (tag tray : Byte) : State → State :=
  takeRequest p tag false fun s =>
    match trayOf tray with
    | some t => answerAfter .ok (State.trayPayload · t) (checkRead t s)
    | none => refuse .range s

/-- READ_STATION (R119). -/
def stationRequest (p : Port) (tag address : Byte) : State → State :=
  takeRequest p tag false fun s =>
    match stationOf address with
    | some a => answerNow (s.stationPayload a) s
    | none => refuse .range s

/-- READ_ZONE: the counts read every tray's zone with its check (R104). -/
def zoneRequest (p : Port) (tag zone : Byte) : State → State :=
  takeRequest p tag false fun s =>
    match zoneOf zone with
    | some z => answerAfter .ok (State.zonePayload · z) (readAll s)
    | none => refuse .range s

/-- READ_PLAN: part 0 tests the entries it returns (R20, R58). -/
def planRequest (p : Port) (tag part : Byte) : State → State :=
  takeRequest p tag false fun s =>
    match part.toNat with
    | 0 => let s := reportEntries s; answerNow (s.planPart0 p) s
    | 1 => answerNow (s.planPart1 p) s
    | _ => refuse .range s

/-- READ_SNAPSHOT (R128). -/
def snapshotRequest (p : Port) (tag part : Byte) : State → State :=
  takeRequest p tag false fun s =>
    match s.sense.published.part part with
    | some bytes => answerNow bytes s
    | none => refuse .range s

/-- READ_JOURNAL: up to four entries from the port's cursor, which moves past them; the gap flag is reported and cleared
(R150). -/
def journalRequest (p : Port) (tag : Byte) : State → State :=
  takeRequest p tag false fun s =>
    let taken := (unreadEntries p s).take 4
    let r := s.port p
    let unread := r.unread - taken.length
    answerNow (journalPayload taken r.gap unread) (s.setPort p { r with unread := unread, gap := false })

/-- READ_ALERTS (R148). -/
def alertsRequest (p : Port) (tag : Byte) : State → State :=
  takeRequest p tag false fun s => answerNow (s.port p).alertPayload s

/-! ### Alerts -/

/-- An alert request replaces the port's alert record and answers with it (R148). -/
def changeAlerts (p : Port) (f : PortRec → PortRec) (s : State) : State × Answer :=
  answerNow (f (s.port p)).alertPayload (s.setPort p (f (s.port p)))

/-- SET_ALERTS (R148). -/
def setAlertsRequest (p : Port) (tag : Byte) (enable urgent : Half) : State → State :=
  takeRequest p tag false (changeAlerts p (PortRec.setMasks enable urgent))

/-- ACK_ALERTS (R148). -/
def ackAlertsRequest (p : Port) (tag : Byte) (mask : Half) : State → State :=
  takeRequest p tag false (changeAlerts p (PortRec.acknowledge mask))

/-! ### Leases -/

/-- An accepted lease request answers with the lease as it stands after it (R137). -/
def answerLease (p : Port) (s : State) : State × Answer := answerNow (s.port p).leasePayload s

/-- CLAIM_LEASE (R137). -/
def claimLeaseRequest (p : Port) (tag : Byte) (term : Half) : State → State :=
  takeRequest p tag false fun s =>
    match within 1 600 term.toNat with
    | none => refuse .range s
    | some n =>
      let fresh := (s.port p).lease.isNone
      let s := setLease p (some (Lease.full n)) s
      answerLease p (if fresh then journalise .lease (some (.port p)) none (some .claimed) s else s)

/-- RENEW_LEASE (R137). -/
def renewLeaseRequest (p : Port) (tag : Byte) : State → State :=
  takeRequest p tag false fun s =>
    match (s.port p).lease with
    | none => refuse .noLease s
    | some l => answerLease p (setLease p (some (Lease.full l.term)) s)

/-- DROP_LEASE; its LEASE entry has the port as subject (R57, R137; log entry 57). -/
def dropLeaseRequest (p : Port) (tag : Byte) : State → State :=
  takeRequest p tag false fun s =>
    match (s.port p).lease with
    | none => answerLease p s
    | some _ =>
      let s := journalise .lease (some (.port p)) none (some .dropped) (setLease p none s)
      answerLease p (discardStaging p .leaseEnded s)

end Sys2Proof.Machine
end

