-- ==== Sys2Proof/Machine/SettingsRequests.lean ====
section
/-! DEFINITION. SET_SHELF, SET_LIMITS, SET_TIMING, START_RACK, CLEAR_ZONE, CLEAR_TRAP and SAVE_CONFIG (R19, R35, R60, R62,
R102, R136, R142, R158). -/

namespace Sys2Proof.Machine

/-- The SETTINGS entry of an accepted settings command: the port as subject, the command code as reason (R142, R166). -/
def settingsEntry (p : Port) (command : Nat) : State → State :=
  journalise .settings (some (.port p)) none (some (.number command))

/-! ### SET_SHELF (R35) -/

/-- An accepted SET_SHELF: a change of redundancy forms a capacity claim, taken whole (R33, R35). -/
def shelfTaken (p : Port) (redundancy autoRestart : Bool) (s : State) : State :=
  let changed := s.acct.redundancy != redundancy
  let s := { s with acct := { s.acct with redundancy := redundancy, autoRestart := autoRestart } }
  let s := if changed then endClaim (capacityClaim none .redundancy s) else s
  settingsEntry p 0x30 s

/-- SET_SHELF (R35). -/
def setShelfRequest (p : Port) (tag redundancy autoRestart : Byte) : State → State :=
  takeRequest p tag true fun s =>
    match onOff redundancy, onOff autoRestart with
    | some r, some a => answerAfter .ok State.shelfPayload (shelfTaken p r a s)
    | _, _ => refuse .range s

/-! ### SET_LIMITS (R92, R127, R142) -/

/-- An accepted SET_LIMITS: every setting is replaced, and read at the next census close (R74, R92, R127). -/
def limitsTaken (p : Port) (f : LimitFields) (s : State) : State :=
  settingsEntry p 0x31 { s with
    leak := { s.leak with
      wet := f.wet.toNat, openFloor := f.openFloor.toNat, confirm := f.confirm.toNat
      zones := s.leak.zones.mapFinIdx fun i z _ =>
        { z with enabled := f.enabled.getLsbD i, openAsLeak := f.openAsLeak.getLsbD i } }
    sense := { s.sense with warnLimit := f.warnLimit.toNat, overLimit := f.overLimit.toNat }
    hup := { s.hup with cutoff := f.cutoff.toNat } }

/-- SET_LIMITS (R142). -/
def setLimitsRequest (p : Port) (tag : Byte) (f : LimitFields) : State → State :=
  takeRequest p tag true fun s =>
    if LimitFields.inRange f then answerNow (limitsTaken p f s).limitsPayload (limitsTaken p f s) else refuse .range s

/-! ### SET_TIMING (R62, R74, R109, R124, R142) -/

/-- What a change of the pace mode or interval does to the pace timer, and the start opportunity it gives (R62). -/
def paceChanged (mode : PaceMode) (interval : Nat) (s : State) : State :=
  if s.seq.paceMode ≠ mode then
    match mode with
    | .gap => opportunity (s.setPace none)
    | .cadence => s.setPace (if s.queue.isEmpty then none else some interval)
  else if s.seq.paceInterval ≠ interval ∧ s.seq.paceTimer.isSome then
    if mode = .gap ∧ interval = 0 then opportunity (s.setPace none) else s.setPace (some interval)
  else s

/-- An accepted SET_TIMING: the timers it touches, every setting replaced, and the SETTINGS entry (R62, R74, R109, R124). -/
def timingTaken (p : Port) (mode : PaceMode) (f : TimingFields) (s : State) : State :=
  let s := paceChanged mode f.interval.toNat s
  let s := if s.seq.k < f.k.toNat then opportunity s else s
  let census := f.census.toNat
  settingsEntry p 0x32 { s with
    seq := { s.seq with
      paceMode := mode, paceInterval := f.interval.toNat, k := f.k.toNat
      w0 := f.w0.toNat, w1 := f.w1.toNat, w2 := f.w2.toNat }
    hup := { s.hup with
      s1 := f.s1.toNat, s2 := f.s2.toNat, s3 := f.s3.toNat, qualification := f.qualification.toNat }
    link := { s.link with replyTimeout := f.reply.toNat }
    sense := { s.sense with
      interval := census, timer := if s.sense.interval = census then s.sense.timer else some census } }

/-- SET_TIMING (R62, R142). -/
def setTimingRequest (p : Port) (tag : Byte) (f : TimingFields) : State → State :=
  takeRequest p tag true fun s =>
    match if TimingFields.inRange f then paceModeOf f.mode else none with
    | some mode => answerAfter .ok State.timingPayload (timingTaken p mode f s)
    | none => refuse .range s

/-! ### START_RACK, CLEAR_ZONE, CLEAR_TRAP (R19, R60, R102) -/

/-- START_RACK: a manual plan run, which clears the automatic run due mark (R60). -/
def startRackRequest (p : Port) (tag : Byte) : State → State :=
  takeRequest p tag true fun s =>
    if !s.isNormal then refuse .holdupState s
    else if !s.isSettled then refuse .recovering s
    else
      let (s, n) := planRun false (s.setDue false false)
      answerAfter .ok (State.runPayload · n) s

/-- CLEAR_ZONE: refused with STATE unless the zone is in LEAK with last classification DRY (R102). -/
def clearZoneRequest (p : Port) (tag zone : Byte) : State → State :=
  takeRequest p tag true fun s =>
    match zoneOf zone with
    | none => refuse .range s
    | some z =>
      if (s.zone z).state = .leak ∧ (s.zone z).lastClass = some .dry then
        let (s, n) := clearZoneEffect p z s
        answerAfter .ok (fun s => s.zoneRecord z ++ [byte n]) s
      else refuse .state s

/-- CLEAR_TRAP: the trap is emptied and more cleared (R19). -/
def clearTrapRequest (p : Port) (tag : Byte) : State → State :=
  takeRequest p tag true fun s =>
    let s := { s with trap := { latched := none, more := false } }
    answerNow s.trap.payload s

/-! ### SAVE_CONFIG (R136, R158) -/

/-- How many trays' parts carry a failing code (R158). -/
def State.failingCount (s : State) : Nat := countTrays fun t => (s.tray t).code == .failing

/-- An accepted SAVE_CONFIG: every part is read with its check, the image is captured, the stored image no longer passes its
check, and the port is EXECUTING with an empty buffer (R136, R158). -/
def saveTaken (p : Port) (tag : Byte) (s : State) : State :=
  let s := finish (readAll s)
  let s := { s with store :=
    { image := none
      writing := some { port := p, image := s.capture, census := s.sense.census, failing := s.failingCount } } }
  s.setPort p { s.port p with state := .executing, response := none, execTag := some tag }

/-- SAVE_CONFIG (R136, R158). -/
def saveConfigRequest (p : Port) (tag : Byte) : State → State :=
  portTake p tag true fun s =>
    if s.store.writing.isSome then respond p tag { status := .storeBusy, payload := [] } s else saveTaken p tag s

/-- The store write completes: the image passes its check, and the port is READY with the census number at the capture and
the number of failing parts (R136, R158). -/
def storeWritten (s : State) : State :=
  match s.store.writing with
  | none => s
  | some w =>
    let s' := { s with store := { image := some w.image, writing := none } }
    respond w.port ((s.port w.port).execTag.getD 0)
      { status := .ok, payload := bytes2 w.census ++ [byte w.failing] } s'

end Sys2Proof.Machine
end

