-- ==== Sys2Proof/Machine/TrayRequests.lean ====
section
/-! DEFINITION. GRANT, RELEASE, SET_TRAY and CLEAR_FAULT (R23 to R25, R36 to R41). -/

namespace Sys2Proof.Machine

/-! ### GRANT (R36 to R40) -/

/-- The checks of R36 after the tray number, in their order; none when all pass. -/
def grantCheck (t : TrayId) (amount : Half) (rev park : Byte) (s : State) : Option Status :=
  let r := s.tray t
  if amount = 0 ∨ 4095 < amount.toNat ∨ (onOff park).isNone then some .range
  else if rev ≠ r.revision then some .stale
  else if r.locked then some .locked
  else if r.state = .isolated ∨ r.state = .faulted then some .state
  else if s.acct.mode = .recovering ∧ ¬(r.state = .run ∧ amount.toNat ≤ r.grant) then some .recovering
  else none

/-- The GRANT journal entry (R40). -/
def grantEntry (t : TrayId) (g : Nat) (reason : Reason) : State → State :=
  journalise .grant (some (.tray t)) (some g) (some reason)

/-- GRANT on an IDLE tray (R37). -/
def grantIdle (t : TrayId) (g : Nat) (park : Bool) (s : State) : State × Status :=
  if !s.isNormal then (s, .holdupState)
  else
    let s := checkRead t s
    if (s.tray t).locked then (s, .locked)
    else if s.fits ((s.tray t).commitFor .queued g) then (grantEntry t g .queued (move t .queued g none s), .ok)
    else if park then (grantEntry t g .parked (move t .parked g none s), .ok)
    else (s, .noHeadroom)

/-- A GRANT that changes the grant of a QUEUED, INRUSH or RUN tray is taken, with an admission pass when the commitment
fell (R38, R40). -/
def grantResize (t : TrayId) (g : Nat) (s : State) : State :=
  let before := (s.tray t).commitment
  let s := grantEntry t g .resized (resizeGrant t g false s)
  if (s.tray t).commitment < before then admissionDue s else s

/-- GRANT on a QUEUED, INRUSH or RUN tray (R38). One that is equal to the present grant is accepted as no change, and like every
accepted GRANT it clears the adopted mark (R2, R6; log entry 18). -/
def grantActive (t : TrayId) (g : Nat) (s : State) : State × Status :=
  if g = (s.tray t).grant then (clearAdopted t s, .ok)
  else if (s.tray t).grant < g ∧ !s.isNormal then (s, .holdupState)
  else
    let s := if (s.tray t).state = .run then s else checkRead t s
    let r := s.tray t
    if r.locked then (s, .locked)
    else if r.grant < g ∧ !s.fits (r.commitFor r.state g - r.commitment) then (s, .noHeadroom)
    else (grantResize t g s, .ok)

/-- GRANT on a PARKED tray; its entry has reason RESIZED (R39, R40; log entry 51), and an amount equal to the present grant is
taken as any other (log entry 54). -/
def grantParked (t : TrayId) (g : Nat) (s : State) : State × Status :=
  (admissionDue (grantEntry t g .resized (resizeGrant t g false s)), .ok)

/-- A GRANT that passes the checks, taken by the tray's state (R36). -/
def grantTaken (t : TrayId) (g : Nat) (park : Bool) (s : State) : State × Status :=
  match (s.tray t).state with
  | .idle => grantIdle t g park s
  | .queued | .inrush | .run => grantActive t g s
  | .parked => grantParked t g s
  | .isolated | .faulted => (s, .state)

/-- GRANT (R36 to R40). -/
def grantRequest (p : Port) (tag tray : Byte) (amount : Half) (rev park : Byte) : State → State :=
  takeRequest p tag true fun s =>
    match trayOf tray with
    | none => refuse .range s
    | some t =>
      match grantCheck t amount rev park s with
      | some st => (s, { status := st, payload := s.grantPayload t })
      | none =>
        let (s, st) := grantTaken t amount.toNat (park == 1) s
        answerAfter st (State.grantPayload · t) s

/-! ### RELEASE (R41) -/

/-- The checks of R41 after the tray number. -/
def releaseCheck (t : TrayId) (rev : Byte) (s : State) : Option Status :=
  let r := s.tray t
  if rev ≠ r.revision then some .stale
  else if r.locked then some .locked
  else
    match r.state with
    | .idle | .isolated | .faulted => some .state
    | _ => none

/-- An accepted RELEASE (R41). -/
def releaseTaken (t : TrayId) (s : State) : State :=
  let former := (s.tray t).state
  admissionDue (journalise .release (some (.tray t)) none (some (.number former.code)) (move t .idle 0 none s))

/-- RELEASE (R41). -/
def releaseRequest (p : Port) (tag tray rev : Byte) : State → State :=
  takeRequest p tag true fun s =>
    match trayOf tray with
    | none => refuse .range s
    | some t =>
      match releaseCheck t rev s with
      | some st => refuse st s
      | none => answerAfter .ok (State.trayPayload · t) (releaseTaken t s)

/-! ### SET_TRAY (R23, R24) -/

/-- tries_left after start tries are rewritten: in INRUSH the smaller of its value and the new start tries (R23). -/
def Tray.rewriteTries (r : Tray) (tries : Nat) : Nat := if r.state = .inrush then min r.triesLeft tries else tries

/-- The state after a rewrite of the zone: an IDLE tray given a zone in LEAK becomes ISOLATED, and an ISOLATED tray that is
unlocked with NONE or a zone not in LEAK becomes IDLE (R23, R24). -/
def rewriteState (r : Tray) (inLeak : Bool) : TrayState :=
  match r.state with
  | .idle => if inLeak then .isolated else .idle
  | .isolated => if r.locked && !inLeak then .idle else .isolated
  | st => st

/-- The record of an accepted SET_TRAY: the configuration part replaced whole with a new check code, unlocked, the
commitment worked out again, the revision incremented once (R23, R24). -/
def Tray.rewrite (r : Tray) (c : TrayConfig) (inLeak : Bool) : Tray :=
  let new := { r with cfg := c, code := .matching, locked := false, frozen := 0 }
  { new with
    state := rewriteState r inLeak
    commitment := new.commitFor r.state r.grant
    revision := r.revision + 1
    triesLeft := r.rewriteTries c.tries
    deferred := r.deferred && c.selfRequest
    overCap := r.overCap && c.selfRequest }

/-- Checks 3 and 4 of R23, on a tray that is not locked. -/
def setTrayCheck (t : TrayId) (c : TrayConfig) (s : State) : Option Status :=
  let r := s.tray t
  let rise := Tray.commitFor { r with cfg := c } r.state r.grant - r.commitment
  if c.zone ≠ r.cfg.zone ∧ r.state ≠ .idle ∧ r.state ≠ .faulted then some .state
  else if (r.state = .queued ∨ r.state = .inrush) ∧ 0 < rise then
    if s.acct.mode = .recovering then some .recovering else if s.fits rise then none else some .noHeadroom
  else none

/-- An accepted SET_TRAY, on a tray locked or not: the record, the re-sort that a changed class or a cleared lock calls for,
the shortfall pass that an untested rise may need, the admission pass after a fall, and the lifting of the tray's hold (R11,
R16, R23, R24). The OVER_CAP entry of self_request turned off comes before every other entry of the request but those of the read
of its checks (log entries 23 and 59). -/
def setTrayTaken (t : TrayId) (c : TrayConfig) (s : State) : State :=
  let r := s.tray t
  let wasHeld := s.held t
  let s := if r.overCap && !c.selfRequest then overCapCleared t s else s
  let s := s.putTray t (r.rewrite c (s.zoneInLeak c))
  let s := if (r.locked || c.cls != r.cfg.cls) && (r.state == .parked || r.state.enabled) then resort s else s
  let s := if r.locked && (r.state == .queued || r.state == .inrush) then shortfallIfDue s else s
  let s := if (r.rewrite c false).commitment < r.commitment then admissionDue s else s
  if liftedFrom wasHeld t s then holdLifted t s else s

/-- SET_TRAY (R23, R24, R141). The read that its checks need may lock the tray, and the request is then taken as one on a
locked tray. -/
def setTrayRequest (p : Port) (tag tray rev : Byte) (f : TrayFields) : State → State :=
  takeRequest p tag true fun s =>
    match trayOf tray, TrayFields.config f with
    | some t, some c =>
      if rev ≠ (s.tray t).revision then refuse .stale s
      else
        let s := checkRead t s
        match if (s.tray t).locked then none else setTrayCheck t c s with
        | some st => refuse st s
        | none => answerAfter .ok (State.trayPayload · t) (setTrayTaken t c s)
    | _, _ => refuse .range s

/-! ### CLEAR_FAULT (R25) -/

/-- The checks of R25 after the tray number. -/
def clearFaultCheck (t : TrayId) (rev : Byte) (s : State) : Option Status :=
  let r := s.tray t
  if rev ≠ r.revision then some .stale
  else if r.locked then some .locked
  else if r.state ≠ .faulted then some .state
  else none

/-- An accepted CLEAR_FAULT: IDLE, or ISOLATED when the tray's zone is in LEAK, with tries_left reloaded (R25). -/
def clearFaultTaken (t : TrayId) (s : State) : State :=
  let r := s.tray t
  s.putTray t { r with
    state := if s.zoneInLeak r.cfg then .isolated else .idle
    faultCause := none, triesLeft := r.cfg.tries, revision := r.revision + 1 }

/-- CLEAR_FAULT (R25, R141). -/
def clearFaultRequest (p : Port) (tag tray rev : Byte) : State → State :=
  takeRequest p tag true fun s =>
    match trayOf tray with
    | none => refuse .range s
    | some t =>
      match clearFaultCheck t rev s with
      | some st => refuse st s
      | none =>
        let s := checkRead t s
        if (s.tray t).locked then answerAfter .locked (fun _ => []) s
        else answerAfter .ok (State.trayPayload · t) (clearFaultTaken t s)

end Sys2Proof.Machine
end

