-- ==== Sys2Proof/Machine/Requests.lean ====
section
/-! DEFINITION. The bytes of every request, the checks of a taken write (R131, R134, R163), and what runs for each. -/

namespace Sys2Proof.Machine

/-- A request message before its length byte and CRC-8: where it is sent, its command code, its tag and its payload. -/
structure Request where
  port : Port
  code : Byte
  tag : Byte
  payload : List Byte
  deriving DecidableEq, Repr

/-- The bytes a manager writes for a request (R134, R163). -/
def Request.bytes (r : Request) : List Byte :=
  let body := [r.code, r.tag, byte r.payload.length] ++ r.payload
  body ++ [crc8 body]

/-- The payload of SET_TRAY after the tray and the expected revision (R163). -/
def trayFieldBytes (f : TrayFields) : List Byte :=
  [f.cls, f.zone] ++ bytes2 f.inrush ++ bytes2 f.standing ++ bytes2 f.cap ++ [f.window, f.tries, f.flags]

/-- The payload of SET_LIMITS (R163). -/
def limitFieldBytes (f : LimitFields) : List Byte :=
  bytes2 f.wet ++ bytes2 f.openFloor ++ [f.confirm, f.enabled, f.openAsLeak] ++ bytes2 f.warnLimit ++ bytes2 f.overLimit
    ++ bytes2 f.cutoff

/-- The payload of SET_TIMING (R163). -/
def timingFieldBytes (f : TimingFields) : List Byte :=
  [f.mode] ++ bytes2 f.interval ++ [f.k] ++ bytes2 f.w0 ++ bytes2 f.w1 ++ bytes2 f.w2 ++ bytes2 f.s1 ++ bytes2 f.s2
    ++ bytes2 f.s3 ++ bytes2 f.qualification ++ [f.reply] ++ bytes2 f.census

/-- The request message of a command, by the table of R163; none for a command that no manager writes. -/
def requestOf : Instr → Option Request
  | .readStatus p tag x => some ⟨p, 0x01, tag, [x]⟩
  | .readTray p tag x => some ⟨p, 0x02, tag, [x]⟩
  | .readStation p tag x => some ⟨p, 0x03, tag, [x]⟩
  | .readZone p tag x => some ⟨p, 0x04, tag, [x]⟩
  | .readPlan p tag x => some ⟨p, 0x05, tag, [x]⟩
  | .readSnapshot p tag x => some ⟨p, 0x06, tag, [x]⟩
  | .readJournal p tag => some ⟨p, 0x07, tag, []⟩
  | .readAlerts p tag => some ⟨p, 0x08, tag, []⟩
  | .setAlerts p tag e u => some ⟨p, 0x10, tag, bytes2 e ++ bytes2 u⟩
  | .ackAlerts p tag m => some ⟨p, 0x11, tag, bytes2 m⟩
  | .claimLease p tag t => some ⟨p, 0x18, tag, bytes2 t⟩
  | .renewLease p tag => some ⟨p, 0x19, tag, []⟩
  | .dropLease p tag => some ⟨p, 0x1A, tag, []⟩
  | .grant p tag t a r k => some ⟨p, 0x20, tag, [t] ++ bytes2 a ++ [r, k]⟩
  | .release p tag t r => some ⟨p, 0x21, tag, [t, r]⟩
  | .setTray p tag t r f => some ⟨p, 0x22, tag, [t, r] ++ trayFieldBytes f⟩
  | .clearFault p tag t r => some ⟨p, 0x23, tag, [t, r]⟩
  | .planOpen p tag r => some ⟨p, 0x28, tag, [r]⟩
  | .planPoint p tag x => some ⟨p, 0x29, tag, [x]⟩
  | .planPut p tag x => some ⟨p, 0x2A, tag, [x]⟩
  | .planLength p tag x => some ⟨p, 0x2B, tag, [x]⟩
  | .planCommit p tag => some ⟨p, 0x2C, tag, []⟩
  | .planAbort p tag => some ⟨p, 0x2D, tag, []⟩
  | .setShelf p tag r a => some ⟨p, 0x30, tag, [r, a]⟩
  | .setLimits p tag f => some ⟨p, 0x31, tag, limitFieldBytes f⟩
  | .setTiming p tag f => some ⟨p, 0x32, tag, timingFieldBytes f⟩
  | .startRack p tag => some ⟨p, 0x38, tag, []⟩
  | .clearZone p tag z => some ⟨p, 0x39, tag, [z]⟩
  | .clearTrap p tag => some ⟨p, 0x3A, tag, []⟩
  | .saveConfig p tag => some ⟨p, 0x3B, tag, []⟩
  | _ => none

/-- The payload length that a command code defines, or none for a byte that names no command (R163). -/
def payloadLength (code : Byte) : Option Nat :=
  match code.toNat with
  | 0x01 | 0x02 | 0x03 | 0x04 | 0x05 | 0x06 | 0x28 | 0x29 | 0x2A | 0x2B | 0x39 => some 1
  | 0x07 | 0x08 | 0x19 | 0x1A | 0x2C | 0x2D | 0x38 | 0x3A | 0x3B => some 0
  | 0x11 | 0x18 | 0x21 | 0x23 | 0x30 => some 2
  | 0x10 => some 4
  | 0x20 => some 5
  | 0x22 | 0x31 => some 13
  | 0x32 => some 21
  | _ => none

/-- The ten fields of SET_TRAY from its payload (R163). -/
def trayFieldsOf : List Byte → Option TrayFields
  | [c, z, i0, i1, s0, s1, c0, c1, w, tr, fl] =>
    some { cls := c, zone := z, inrush := half i0 i1, standing := half s0 s1, cap := half c0 c1, window := w,
           tries := tr, flags := fl }
  | _ => none

/-- The settings of SET_LIMITS from its payload (R163). -/
def limitFieldsOf : List Byte → Option LimitFields
  | [w0, w1, f0, f1, c, en, ol, b0, b1, o0, o1, k0, k1] =>
    some { wet := half w0 w1, openFloor := half f0 f1, confirm := c, enabled := en, openAsLeak := ol,
           warnLimit := half b0 b1, overLimit := half o0 o1, cutoff := half k0 k1 }
  | _ => none

/-- The settings of SET_TIMING from its payload (R163). -/
def timingFieldsOf : List Byte → Option TimingFields
  | [m, i0, i1, k, a0, a1, b0, b1, c0, c1, d0, d1, e0, e1, f0, f1, q0, q1, r, n0, n1] =>
    some { mode := m, interval := half i0 i1, k := k, w0 := half a0 a1, w1 := half b0 b1, w2 := half c0 c1,
           s1 := half d0 d1, s2 := half e0 e1, s3 := half f0 f1, qualification := half q0 q1, reply := r,
           census := half n0 n1 }
  | _ => none

/-- The command that a code and a payload of its length name (R163). -/
def commandOf (p : Port) (code tag : Byte) (payload : List Byte) : Option Instr :=
  match code.toNat, payload with
  | 0x01, [x] => some (.readStatus p tag x)
  | 0x02, [x] => some (.readTray p tag x)
  | 0x03, [x] => some (.readStation p tag x)
  | 0x04, [x] => some (.readZone p tag x)
  | 0x05, [x] => some (.readPlan p tag x)
  | 0x06, [x] => some (.readSnapshot p tag x)
  | 0x07, [] => some (.readJournal p tag)
  | 0x08, [] => some (.readAlerts p tag)
  | 0x10, [e0, e1, u0, u1] => some (.setAlerts p tag (half e0 e1) (half u0 u1))
  | 0x11, [m0, m1] => some (.ackAlerts p tag (half m0 m1))
  | 0x18, [t0, t1] => some (.claimLease p tag (half t0 t1))
  | 0x19, [] => some (.renewLease p tag)
  | 0x1A, [] => some (.dropLease p tag)
  | 0x20, [t, a0, a1, r, k] => some (.grant p tag t (half a0 a1) r k)
  | 0x21, [t, r] => some (.release p tag t r)
  | 0x22, t :: r :: fs => (trayFieldsOf fs).map (.setTray p tag t r)
  | 0x23, [t, r] => some (.clearFault p tag t r)
  | 0x28, [r] => some (.planOpen p tag r)
  | 0x29, [x] => some (.planPoint p tag x)
  | 0x2A, [x] => some (.planPut p tag x)
  | 0x2B, [x] => some (.planLength p tag x)
  | 0x2C, [] => some (.planCommit p tag)
  | 0x2D, [] => some (.planAbort p tag)
  | 0x30, [r, a] => some (.setShelf p tag r a)
  | 0x31, fs => (limitFieldsOf fs).map (.setLimits p tag)
  | 0x32, fs => (timingFieldsOf fs).map (.setTiming p tag)
  | 0x38, [] => some (.startRack p tag)
  | 0x39, [z] => some (.clearZone p tag z)
  | 0x3A, [] => some (.clearTrap p tag)
  | 0x3B, [] => some (.saveConfig p tag)
  | _, _ => none

/-- What the checks of R134 steps 1 to 3 make of the bytes of a write. -/
inductive Parsed where
  | badFrame
  | unknown
  | command (i : Instr)
  deriving DecidableEq, Repr

/-- Step 1 of R134: at least 4 bytes and at most 28, a length of at most 24, as many bytes as the length plus 4, and a CRC-8
that matches. -/
def frameGood (bytes : List Byte) : Bool :=
  4 ≤ bytes.length && bytes.length ≤ 28 && bytes.length == (bytes.getD 2 0).toNat + 4
    && crc8 bytes.dropLast == bytes.getLastD 0

/-- Steps 1 to 3 of R134: the frame, the command byte, the payload length. -/
def parseRequest (p : Port) (bytes : List Byte) : Parsed :=
  if frameGood bytes then
    match payloadLength (bytes.getD 0 0) with
    | none => .unknown
    | some n =>
      if n = (bytes.getD 2 0).toNat then
        match commandOf p (bytes.getD 0 0) (bytes.getD 1 0) ((bytes.drop 3).dropLast) with
        | some i => .command i
        | none => .badFrame
      else .badFrame
  else .badFrame

/-- The request that a command is, run against the state; a command that no manager writes runs nothing here. -/
def runRequest : Instr → State → State
  | .readStatus p tag x => statusRequest p tag x
  | .readTray p tag x => trayRequest p tag x
  | .readStation p tag x => stationRequest p tag x
  | .readZone p tag x => zoneRequest p tag x
  | .readPlan p tag x => planRequest p tag x
  | .readSnapshot p tag x => snapshotRequest p tag x
  | .readJournal p tag => journalRequest p tag
  | .readAlerts p tag => alertsRequest p tag
  | .setAlerts p tag e u => setAlertsRequest p tag e u
  | .ackAlerts p tag m => ackAlertsRequest p tag m
  | .claimLease p tag t => claimLeaseRequest p tag t
  | .renewLease p tag => renewLeaseRequest p tag
  | .dropLease p tag => dropLeaseRequest p tag
  | .grant p tag t a r k => grantRequest p tag t a r k
  | .release p tag t r => releaseRequest p tag t r
  | .setTray p tag t r f => setTrayRequest p tag t r f
  | .clearFault p tag t r => clearFaultRequest p tag t r
  | .planOpen p tag r => planOpenRequest p tag r
  | .planPoint p tag x => planPointRequest p tag x
  | .planPut p tag x => planPutRequest p tag x
  | .planLength p tag x => planLengthRequest p tag x
  | .planCommit p tag => planCommitRequest p tag
  | .planAbort p tag => planAbortRequest p tag
  | .setShelf p tag r a => setShelfRequest p tag r a
  | .setLimits p tag f => setLimitsRequest p tag f
  | .setTiming p tag f => setTimingRequest p tag f
  | .startRack p tag => startRackRequest p tag
  | .clearZone p tag z => clearZoneRequest p tag z
  | .clearTrap p tag => clearTrapRequest p tag
  | .saveConfig p tag => saveConfigRequest p tag
  | _ => id

/-- A write of raw bytes: BAD_FRAME with the second stored byte as its tag, or 0 when fewer than two were stored; UNKNOWN; and
a write that passes steps 1 to 3 is the request it spells (R134; log entry 31). A write of no byte takes no request
(R131). -/
def rawWrite (p : Port) (bytes : List Byte) (s : State) : State :=
  if s.sup.held then s
  else if (s.port p).state == .executing then raiseOverrun p s
  else if bytes.isEmpty then s
  else
    match parseRequest p bytes with
    | .badFrame => respond p (bytes.getD 1 0) { status := .badFrame, payload := [] } s
    | .unknown => respond p (bytes.getD 1 0) { status := .unknown, payload := [] } s
    | .command i => runRequest i s

/-- A write to a port that is EXECUTING is not acknowledged, and sets that port's PORT_OVERRUN (R132). -/
def refusedWrite (p : Port) (s : State) : State :=
  if !s.sup.held && (s.port p).state == .executing then raiseOverrun p s else s

end Sys2Proof.Machine
end

