-- ==== Sys2Proof/Machine/PortCommands.lean ====
section
/-! DEFINITION. The meanings of the commands that reach the part through its manager ports, the store and the leases. -/

namespace Sys2Proof.Machine

/-- READ_STATUS (R139). -/
def execReadStatus (p : Port) (tag part : Byte) (s : State) : Host.Outcome State Fault Refusal :=
  .next (statusRequest p tag part s)

/-- READ_TRAY (R8). -/
def execReadTray (p : Port) (tag tray : Byte) (s : State) : Host.Outcome State Fault Refusal :=
  .next (trayRequest p tag tray s)

/-- READ_STATION (R119). -/
def execReadStation (p : Port) (tag address : Byte) (s : State) : Host.Outcome State Fault Refusal :=
  .next (stationRequest p tag address s)

/-- READ_ZONE (R104). -/
def execReadZone (p : Port) (tag zone : Byte) (s : State) : Host.Outcome State Fault Refusal :=
  .next (zoneRequest p tag zone s)

/-- READ_PLAN (R58). -/
def execReadPlan (p : Port) (tag part : Byte) (s : State) : Host.Outcome State Fault Refusal :=
  .next (planRequest p tag part s)

/-- READ_SNAPSHOT (R128). -/
def execReadSnapshot (p : Port) (tag part : Byte) (s : State) : Host.Outcome State Fault Refusal :=
  .next (snapshotRequest p tag part s)

/-- READ_JOURNAL (R150). -/
def execReadJournal (p : Port) (tag : Byte) (s : State) : Host.Outcome State Fault Refusal :=
  .next (journalRequest p tag s)

/-- READ_ALERTS (R148). -/
def execReadAlerts (p : Port) (tag : Byte) (s : State) : Host.Outcome State Fault Refusal :=
  .next (alertsRequest p tag s)

/-- SET_ALERTS (R148). -/
def execSetAlerts (p : Port) (tag : Byte) (enable urgent : Half) (s : State) : Host.Outcome State Fault Refusal :=
  .next (setAlertsRequest p tag enable urgent s)

/-- ACK_ALERTS (R148). -/
def execAckAlerts (p : Port) (tag : Byte) (mask : Half) (s : State) : Host.Outcome State Fault Refusal :=
  .next (ackAlertsRequest p tag mask s)

/-- CLAIM_LEASE (R137). -/
def execClaimLease (p : Port) (tag : Byte) (term : Half) (s : State) : Host.Outcome State Fault Refusal :=
  .next (claimLeaseRequest p tag term s)

/-- RENEW_LEASE (R137). -/
def execRenewLease (p : Port) (tag : Byte) (s : State) : Host.Outcome State Fault Refusal :=
  .next (renewLeaseRequest p tag s)

/-- DROP_LEASE (R137). -/
def execDropLease (p : Port) (tag : Byte) (s : State) : Host.Outcome State Fault Refusal :=
  .next (dropLeaseRequest p tag s)

/-- GRANT (R36 to R40). -/
def execGrant (p : Port) (tag tray : Byte) (amount : Half) (rev park : Byte) (s : State) :
    Host.Outcome State Fault Refusal :=
  .next (grantRequest p tag tray amount rev park s)

/-- RELEASE (R41). -/
def execRelease (p : Port) (tag tray rev : Byte) (s : State) : Host.Outcome State Fault Refusal :=
  .next (releaseRequest p tag tray rev s)

/-- SET_TRAY (R23, R24). -/
def execSetTray (p : Port) (tag tray rev : Byte) (f : TrayFields) (s : State) : Host.Outcome State Fault Refusal :=
  .next (setTrayRequest p tag tray rev f s)

/-- CLEAR_FAULT (R25). -/
def execClearFault (p : Port) (tag tray rev : Byte) (s : State) : Host.Outcome State Fault Refusal :=
  .next (clearFaultRequest p tag tray rev s)

/-- PLAN_OPEN (R54). -/
def execPlanOpen (p : Port) (tag rev : Byte) (s : State) : Host.Outcome State Fault Refusal :=
  .next (planOpenRequest p tag rev s)

/-- PLAN_POINT (R55). -/
def execPlanPoint (p : Port) (tag position : Byte) (s : State) : Host.Outcome State Fault Refusal :=
  .next (planPointRequest p tag position s)

/-- PLAN_PUT (R55). -/
def execPlanPut (p : Port) (tag tray : Byte) (s : State) : Host.Outcome State Fault Refusal :=
  .next (planPutRequest p tag tray s)

/-- PLAN_LENGTH (R55). -/
def execPlanLength (p : Port) (tag length : Byte) (s : State) : Host.Outcome State Fault Refusal :=
  .next (planLengthRequest p tag length s)

/-- PLAN_COMMIT (R56). -/
def execPlanCommit (p : Port) (tag : Byte) (s : State) : Host.Outcome State Fault Refusal :=
  .next (planCommitRequest p tag s)

/-- PLAN_ABORT (R57). -/
def execPlanAbort (p : Port) (tag : Byte) (s : State) : Host.Outcome State Fault Refusal :=
  .next (planAbortRequest p tag s)

/-- SET_SHELF (R35). -/
def execSetShelf (p : Port) (tag redundancy autoRestart : Byte) (s : State) : Host.Outcome State Fault Refusal :=
  .next (setShelfRequest p tag redundancy autoRestart s)

/-- SET_LIMITS (R142). -/
def execSetLimits (p : Port) (tag : Byte) (f : LimitFields) (s : State) : Host.Outcome State Fault Refusal :=
  .next (setLimitsRequest p tag f s)

/-- SET_TIMING (R62, R142). -/
def execSetTiming (p : Port) (tag : Byte) (f : TimingFields) (s : State) : Host.Outcome State Fault Refusal :=
  .next (setTimingRequest p tag f s)

/-- START_RACK (R60). -/
def execStartRack (p : Port) (tag : Byte) (s : State) : Host.Outcome State Fault Refusal :=
  .next (startRackRequest p tag s)

/-- CLEAR_ZONE (R102). -/
def execClearZone (p : Port) (tag zone : Byte) (s : State) : Host.Outcome State Fault Refusal :=
  .next (clearZoneRequest p tag zone s)

/-- CLEAR_TRAP (R19). -/
def execClearTrap (p : Port) (tag : Byte) (s : State) : Host.Outcome State Fault Refusal :=
  .next (clearTrapRequest p tag s)

/-- SAVE_CONFIG (R136, R158). -/
def execSaveConfig (p : Port) (tag : Byte) (s : State) : Host.Outcome State Fault Refusal :=
  .next (saveConfigRequest p tag s)

/-- UNKNOWN_REQUEST (R134). -/
def execUnknownRequest (p : Port) (bytes : List Byte) (s : State) : Host.Outcome State Fault Refusal :=
  .next (rawWrite p bytes s)

/-- WRITE_REFUSED_EXECUTING (R132). -/
def execWriteRefusedExecuting (p : Port) (s : State) : Host.Outcome State Fault Refusal :=
  .next (refusedWrite p s)

/-- STORE_WRITE_COMPLETE (R136, R158). -/
def execStoreWriteComplete (s : State) : Host.Outcome State Fault Refusal :=
  .next (storeWritten s)

/-- LEASE_LAPSED (R138). -/
def execLeaseLapsed (p : Port) (s : State) : Host.Outcome State Fault Refusal :=
  .next (leaseLapse p s)

end Sys2Proof.Machine
end

