-- ==== Sys2Proof/Machine/RackEvents.lean ====
section
/-! DEFINITION. The events of the link, the sequencer, the holdup controller and the sensing that are whole commands:
guards, the event's own effect, and its end. A held core takes none of them (log entry 6). -/

namespace Sys2Proof.Machine

/-- An event of the core; a held core takes none (log entry 6). -/
def coreEvent (f : State → State) (s : State) : State := if s.sup.held then s else f s

/-- The pace timer expires: in GAP it becomes idle and the expiry is a start opportunity; in CADENCE it reloads and offers one
start. An idle timer has no expiry (R64, R65). -/
def paceExpired (s : State) : State :=
  if s.seq.paceTimer.isNone then s
  else
    match s.seq.paceMode with
    | .gap => finish (opportunity (s.setPace none))
    | .cadence => finish (cadenceStart (s.setPace (some s.seq.paceInterval)))

/-- A window's timer expires and its start is judged; a slot that holds no window has no expiry (R68). -/
def windowExpired (j : SlotId) (s : State) : State :=
  if (s.seq.slots[j]).isSome then finish (windowEnd j s) else s

/-- PFAIL_N is asserted, in the core's state: HOLDUP and a new episode, or DARK without a battery, from NORMAL; HOLDUP again
from warm REGAIN; DARK from cold REGAIN; nothing in HOLDUP and DARK (R76, R77, R82, R86). -/
def acLost (s : State) : State :=
  match s.hup.state with
  | .normal =>
    if s.isSettled && s.acct.battery == 0 then finish (enterDark .noBattery s) else finish (enterHoldup s)
  | .regain => if s.hup.cold then finish (enterDark .acLost s) else finish (resumeHoldup s)
  | .holdup | .dark => s

/-- PFAIL_N becomes asserted; an unchanged level is no event, and a held core only sees the level (R153; log entry 11). -/
def pfailRise (s : State) : State :=
  if s.sup.pfailAsserted then s
  else
    let s := { s with sup := { s.sup with pfailAsserted := true } }
    coreEvent acLost s

/-- PFAIL_N is deasserted, in the core's state: warm REGAIN from HOLDUP, cold REGAIN from DARK, nothing elsewhere (R81,
R86). -/
def acReturned (s : State) : State :=
  match s.hup.state with
  | .holdup => finish (enterWarmRegain s)
  | .dark => finish (enterColdRegain s)
  | .normal | .regain => s

/-- PFAIL_N becomes deasserted (R81, R86; log entry 11). -/
def pfailFall (s : State) : State :=
  if s.sup.pfailAsserted then
    let s := { s with sup := { s.sup with pfailAsserted := false } }
    coreEvent acReturned s
  else s

/-- The qualification timer expires: from cold REGAIN NORMAL is entered; from warm REGAIN NORMAL is entered when shelf
capacity is at least committed, and otherwise qualified is set. An idle timer has no expiry (R83, R86). -/
def qualificationExpired (s : State) : State :=
  if s.hup.qualTimer.isNone then s
  else
    let s := s.setHup { s.hup with qualTimer := none }
    if s.hup.cold || decide (s.acct.committed ≤ s.acct.shelf) then finish (enterNormal s)
    else
      let s := s.setHup { s.hup with qualified := true }
      journalise .qualified none (some s.acct.shelf) (some .short) s

/-- The stage tick expires: the stage timer counts down by one, saturating at −32 768, the tick is armed again, and every
stage whose boundary is reached ends (R78, R80, R161). -/
def stageTicked (s : State) : State :=
  if s.hup.stageTick.isNone then s
  else
    let s := s.setHup { s.hup with
      timer := max (s.hup.timer - 1) (-32768), stageTick := some Config.stageTickMs }
    finish (advanceStages 3 s)

/-- The census timer expires and a census closes (R124, R125). -/
def censusExpired (s : State) : State := if s.sense.timer.isNone then s else censusClosed s

end Sys2Proof.Machine
end

