-- ==== Sys2Proof/Machine/RackCommands.lean ====
section
/-! DEFINITION. The meanings of the events of the Station Link, the timers, the pins, the analog inputs and the supplies. -/

namespace Sys2Proof.Machine

/-- REPLY_FRAME (R109, R110). -/
def execReplyFrame (bytes : List Byte) (s : State) : Host.Outcome State Fault Refusal :=
  .next (coreEvent (replyReceived bytes) s)

/-- STRAY_FRAME: the frame is discarded without any effect on any record (R109). -/
def execStrayFrame (_bytes : List Byte) (s : State) : Host.Outcome State Fault Refusal :=
  .next s

/-- REPLY_TIMEOUT (R109). -/
def execReplyTimeout (s : State) : Host.Outcome State Fault Refusal :=
  .next (coreEvent replyTimedOut s)

/-- PACE_EXPIRY (R64, R65). -/
def execPaceExpiry (s : State) : Host.Outcome State Fault Refusal :=
  .next (coreEvent paceExpired s)

/-- WINDOW_EXPIRY (R68). -/
def execWindowExpiry (slot : SlotId) (s : State) : Host.Outcome State Fault Refusal :=
  .next (coreEvent (windowExpired slot) s)

/-- PFAIL_N_ASSERTED (R76, R77, R82, R86). -/
def execPfailAsserted (s : State) : Host.Outcome State Fault Refusal :=
  .next (pfailRise s)

/-- PFAIL_N_DEASSERTED (R81, R86). -/
def execPfailDeasserted (s : State) : Host.Outcome State Fault Refusal :=
  .next (pfailFall s)

/-- QUALIFICATION_EXPIRY (R83, R86). -/
def execQualificationExpiry (s : State) : Host.Outcome State Fault Refusal :=
  .next (coreEvent qualificationExpired s)

/-- STAGE_TICK (R78). -/
def execStageTick (s : State) : Host.Outcome State Fault Refusal :=
  .next (coreEvent stageTicked s)

/-- CONVERSION (R121, R122). -/
def execConversion (channel : ChannelId) (result : Option Half) (s : State) : Host.Outcome State Fault Refusal :=
  .next (coreEvent (converted channel result) s)

/-- CENSUS_CLOSE (R125). -/
def execCensusClose (s : State) : Host.Outcome State Fault Refusal :=
  .next (coreEvent censusExpired s)

/-- VSTBY_RISE (R152, R153). -/
def execVstbyRise (s : State) : Host.Outcome State Fault Refusal :=
  .next (vstbyRisen s)

/-- VCORE_FALL (R154). -/
def execVcoreFall (s : State) : Host.Outcome State Fault Refusal :=
  .next (vcoreFallen s)

/-- VCORE_RECOVERY (R154). -/
def execVcoreRecovery (s : State) : Host.Outcome State Fault Refusal :=
  .next (vcoreRecovered s)

/-- START_DELAY_EXPIRY (R154). -/
def execStartDelayExpiry (s : State) : Host.Outcome State Fault Refusal :=
  .next (startDelayExpired s)

/-- RESET_N_ASSERTED (R155). -/
def execResetNAsserted (s : State) : Host.Outcome State Fault Refusal :=
  .next (resetAsserted s)

/-- RESET_N_DEASSERTED (R155). -/
def execResetNDeasserted (s : State) : Host.Outcome State Fault Refusal :=
  .next (resetDeasserted s)

/-- VSTBY_FALL (R152). -/
def execVstbyFall (s : State) : Host.Outcome State Fault Refusal :=
  .next (vstbyFallen s)

end Sys2Proof.Machine
end

