-- ==== Sys2Proof/Machine/Dispatch.lean ====
section
/-! DEFINITION. Which meaning each command has. -/

namespace Sys2Proof.Machine

def exec (i : Instr) (s : State) : Host.Outcome State Fault Refusal :=
  match i with
  | .readStatus p tag part => Sys2Proof.Machine.execReadStatus p tag part s
  | .readTray p tag tray => Sys2Proof.Machine.execReadTray p tag tray s
  | .readStation p tag address => Sys2Proof.Machine.execReadStation p tag address s
  | .readZone p tag zone => Sys2Proof.Machine.execReadZone p tag zone s
  | .readPlan p tag part => Sys2Proof.Machine.execReadPlan p tag part s
  | .readSnapshot p tag part => Sys2Proof.Machine.execReadSnapshot p tag part s
  | .readJournal p tag => Sys2Proof.Machine.execReadJournal p tag s
  | .readAlerts p tag => Sys2Proof.Machine.execReadAlerts p tag s
  | .setAlerts p tag enable urgent => Sys2Proof.Machine.execSetAlerts p tag enable urgent s
  | .ackAlerts p tag mask => Sys2Proof.Machine.execAckAlerts p tag mask s
  | .claimLease p tag term => Sys2Proof.Machine.execClaimLease p tag term s
  | .renewLease p tag => Sys2Proof.Machine.execRenewLease p tag s
  | .dropLease p tag => Sys2Proof.Machine.execDropLease p tag s
  | .grant p tag tray amount rev park => Sys2Proof.Machine.execGrant p tag tray amount rev park s
  | .release p tag tray rev => Sys2Proof.Machine.execRelease p tag tray rev s
  | .setTray p tag tray rev f => Sys2Proof.Machine.execSetTray p tag tray rev f s
  | .clearFault p tag tray rev => Sys2Proof.Machine.execClearFault p tag tray rev s
  | .planOpen p tag rev => Sys2Proof.Machine.execPlanOpen p tag rev s
  | .planPoint p tag position => Sys2Proof.Machine.execPlanPoint p tag position s
  | .planPut p tag tray => Sys2Proof.Machine.execPlanPut p tag tray s
  | .planLength p tag length => Sys2Proof.Machine.execPlanLength p tag length s
  | .planCommit p tag => Sys2Proof.Machine.execPlanCommit p tag s
  | .planAbort p tag => Sys2Proof.Machine.execPlanAbort p tag s
  | .setShelf p tag redundancy autoRestart => Sys2Proof.Machine.execSetShelf p tag redundancy autoRestart s
  | .setLimits p tag f => Sys2Proof.Machine.execSetLimits p tag f s
  | .setTiming p tag f => Sys2Proof.Machine.execSetTiming p tag f s
  | .startRack p tag => Sys2Proof.Machine.execStartRack p tag s
  | .clearZone p tag zone => Sys2Proof.Machine.execClearZone p tag zone s
  | .clearTrap p tag => Sys2Proof.Machine.execClearTrap p tag s
  | .saveConfig p tag => Sys2Proof.Machine.execSaveConfig p tag s
  | .unknownRequest p bytes => Sys2Proof.Machine.execUnknownRequest p bytes s
  | .writeRefusedExecuting p => Sys2Proof.Machine.execWriteRefusedExecuting p s
  | .storeWriteComplete => Sys2Proof.Machine.execStoreWriteComplete s
  | .leaseLapsed p => Sys2Proof.Machine.execLeaseLapsed p s
  | .replyFrame bytes => Sys2Proof.Machine.execReplyFrame bytes s
  | .strayFrame bytes => Sys2Proof.Machine.execStrayFrame bytes s
  | .replyTimeout => Sys2Proof.Machine.execReplyTimeout s
  | .paceExpiry => Sys2Proof.Machine.execPaceExpiry s
  | .windowExpiry slot => Sys2Proof.Machine.execWindowExpiry slot s
  | .pfailAsserted => Sys2Proof.Machine.execPfailAsserted s
  | .pfailDeasserted => Sys2Proof.Machine.execPfailDeasserted s
  | .qualificationExpiry => Sys2Proof.Machine.execQualificationExpiry s
  | .stageTick => Sys2Proof.Machine.execStageTick s
  | .conversion channel result => Sys2Proof.Machine.execConversion channel result s
  | .censusClose => Sys2Proof.Machine.execCensusClose s
  | .vstbyRise => Sys2Proof.Machine.execVstbyRise s
  | .vcoreFall => Sys2Proof.Machine.execVcoreFall s
  | .vcoreRecovery => Sys2Proof.Machine.execVcoreRecovery s
  | .startDelayExpiry => Sys2Proof.Machine.execStartDelayExpiry s
  | .resetNAsserted => Sys2Proof.Machine.execResetNAsserted s
  | .resetNDeasserted => Sys2Proof.Machine.execResetNDeasserted s
  | .vstbyFall => Sys2Proof.Machine.execVstbyFall s

end Sys2Proof.Machine
end

