-- ==== Sys2Proof/Machine/Time.lean ====
section
/-! DEFINITION. What an empty queue leaves to time: the expiry of a timer that has run out, or one millisecond (log entry
4). -/

namespace Sys2Proof.Machine

/-- A timer that has run out. -/
def ranOut (t : Option Nat) : Bool := t == some 0

/-- A port's lease timer. -/
def PortRec.leaseTimer (r : PortRec) : Option Nat := r.lease.map Lease.remaining

/-- The timers that have run out, as their expiry commands, in the order in which the model takes them (log entry 4). -/
def expiries (s : State) : List (Bool × Instr) :=
  [(ranOut s.sup.startDelay, .startDelayExpiry), (ranOut s.portA.leaseTimer, .leaseLapsed .a),
   (ranOut s.portB.leaseTimer, .leaseLapsed .b), (ranOut s.link.replyTimer, .replyTimeout)]
    ++ (List.finRange 4).map (fun j => (ranOut ((s.seq.slots[j]).map Slot.remaining), Instr.windowExpiry j))
    ++ [(ranOut s.seq.paceTimer, .paceExpiry), (ranOut s.hup.qualTimer, .qualificationExpiry),
        (ranOut s.hup.stageTick, .stageTick), (ranOut s.sense.timer, .censusClose)]

/-- The first expiry that is due. -/
def dueExpiry (s : State) : Option Instr := ((expiries s).find? Prod.fst).map Prod.snd

/-- One millisecond of a timer. -/
def tickTimer (t : Option Nat) : Option Nat := t.map (· - 1)

/-- One millisecond of a port's lease timer. -/
def PortRec.tick (r : PortRec) : PortRec :=
  { r with lease := r.lease.map fun l => { l with remaining := l.remaining - 1 } }

/-- One millisecond passes on every running timer. -/
def passMillisecond (s : State) : State :=
  { s with
    sup := { s.sup with startDelay := tickTimer s.sup.startDelay }
    portA := s.portA.tick
    portB := s.portB.tick
    link := { s.link with replyTimer := tickTimer s.link.replyTimer }
    seq := { s.seq with
      paceTimer := tickTimer s.seq.paceTimer
      slots := s.seq.slots.map (Option.map fun w => { w with remaining := w.remaining - 1 }) }
    hup := { s.hup with qualTimer := tickTimer s.hup.qualTimer, stageTick := tickTimer s.hup.stageTick }
    sense := { s.sense with timer := tickTimer s.sense.timer } }

end Sys2Proof.Machine
end

