-- ==== Sys2Proof/Machine/Step.lean ====
section
/-! DEFINITION. One step: the command at the front of the queue, or, on an empty queue, what time brings (log entry 4). -/

namespace Sys2Proof.Machine

/-- On an empty queue: the expiry of a timer that has run out, or one millisecond (log entry 4). -/
def idleStep (s : State) : Host.Outcome State Fault Refusal :=
  match dueExpiry s with
  | some i => exec i s
  | none => .next (passMillisecond s)

/-- One step of the part. -/
def step (s : State) : Host.Outcome State Fault Refusal :=
  match s.pending with
  | i :: rest => exec i { s with pending := rest }
  | [] => idleStep s

/-- The state with the command that a table word spells at the front of its queue. -/
def State.withFetchWord (s : State) (nbits w : Nat) : State :=
  match decodeTableWord nbits w with
  | some i => { s with pending := i :: s.pending }
  | none => s

end Sys2Proof.Machine
end

