-- ==== Sys2Proof/Safety.lean ====
section
/-! DEFINITION. What counts as a safe run, and the conditions on a state in whose terms the claims are stated. -/

namespace Sys2Proof.Machine

/-- The core runs and nothing is owed from an earlier command (log entry 12). -/
abbrev State.running (s : State) : Prop := s.sup.held = false ∧ s.agenda = Agenda.none

/-- The port takes a request: the core runs and the port is not EXECUTING (R131, R132). -/
abbrev State.takes (p : Port) (s : State) : Prop := s.running ∧ (s.port p).state ≠ .executing

/-- The port takes a request that needs a lease (R134 step 4). -/
abbrev State.leased (p : Port) (s : State) : Prop := s.takes p ∧ (s.port p).lease.isSome = true

/-- Every tray's enable latch is on exactly in INRUSH and RUN while the core runs; a stopped core keeps the latches as they
were (R3, R152). -/
abbrev State.enablesAgree (s : State) : Prop :=
  s.sup.held = false → ∀ t : TrayId, s.hold.enable[t] = (s.tray t).state.enabled

/-- Every zone's valve latch and leak latch agree, and while the core runs they are set exactly in LEAK (R101). -/
abbrev State.valvesAgree (s : State) : Prop :=
  ∀ z : ZoneId, s.hold.closed[z] = s.hold.leakLatch[z] ∧
    (s.sup.held = false → s.hold.closed[z] = ((s.zone z).state == .leak))

/-- The ring never holds more than 48 entries, and no port has more unread entries than the ring holds (R150). -/
abbrev State.journalBounded (s : State) : Prop :=
  s.journal.entries.length ≤ Config.journalSize ∧
    s.portA.unread ≤ s.journal.entries.length ∧ s.portB.unread ≤ s.journal.entries.length

/-- A held core whose record holds POWER_ON finds the latches as VSTBY left them (R152, R156). -/
abbrev State.powerOnFresh (s : State) : Prop :=
  s.sup.held = true → s.hold.cause = .powerOn → s.hold.enable = Hold.fresh.enable ∧ s.hold.closed = Hold.fresh.closed ∧
    s.hold.leakLatch = Hold.fresh.leakLatch

/-- The latches tell the rack's state and the journal stays within its ring. -/
abbrev State.latchesSound (s : State) : Prop :=
  s.enablesAgree ∧ s.valvesAgree ∧ s.journalBounded ∧ s.powerOnFresh

/-- A tray record as the rules of chapter 1 leave it: the commitment that R4 derives, no grant in IDLE, ISOLATED and FAULTED,
the self-request marks only in QUEUED, INRUSH and RUN, the adopted mark only in RUN, a fault cause exactly in FAULTED, and
tries_left at most start tries (R2, R4, R5). -/
abbrev Tray.lawful (r : Tray) : Prop :=
  r.commitment = r.commitFor r.state r.grant ∧
  (r.state = .idle ∨ r.state = .isolated ∨ r.state = .faulted → r.grant = 0) ∧
  (r.state.keepsMarks = false → r.deferred = false ∧ r.overCap = false) ∧
  (r.adopted = true → r.state = .run) ∧
  (r.faultCause.isSome = true ↔ r.state = .faulted) ∧
  r.triesLeft ≤ r.cfg.tries

/-- Every tray record is lawful. -/
abbrev State.recordsLawful (s : State) : Prop := ∀ t : TrayId, (s.tray t).lawful

/-- Committed is the sum of the commitments of the trays (R30). -/
abbrev State.committedSums (s : State) : Prop :=
  s.acct.committed = (allTrays.map fun t => (s.tray t).commitment).sum

/-- A tray is in the Start Queue exactly when it is QUEUED, in the Park List exactly when it is PARKED, and holds an inrush
slot exactly when it is INRUSH; no list holds a tray twice and no two slots hold the same tray (R12). -/
abbrev State.collectionsAgree (s : State) : Prop :=
  s.queue.Nodup ∧ s.park.Nodup ∧
  (∀ t : TrayId, t ∈ s.queue ↔ (s.tray t).state = .queued) ∧
  (∀ t : TrayId, t ∈ s.park ↔ (s.tray t).state = .parked) ∧
  (∀ t : TrayId, (∃ j : SlotId, (s.seq.slots[j]).map Slot.tray = some t) ↔ (s.tray t).state = .inrush) ∧
  (∀ j k : SlotId, (s.seq.slots[j]).isSome = true →
    (s.seq.slots[j]).map Slot.tray = (s.seq.slots[k]).map Slot.tray → j = k)

/-- The Holdup Controller's own record: an episode, its stage and its tick run exactly in HOLDUP and warm REGAIN; the cold flag
and the qualification timer stand only in REGAIN, the qualified flag only in warm REGAIN, the automatic run due mark only in
NORMAL; outside NORMAL no tray is QUEUED or INRUSH, and in DARK and cold REGAIN none is RUN or PARKED either (R73, R76, R89). -/
abbrev State.holdupSound (s : State) : Prop :=
  s.hup.stage.isSome = s.onBattery ∧ s.hup.stageTick.isSome = s.onBattery ∧
  (s.hup.cold = true → s.hup.state = .regain) ∧
  (s.hup.qualTimer.isSome = true → s.hup.state = .regain) ∧
  (s.hup.qualified = true → s.warmRegain = true) ∧
  (s.seq.autoDue = true → s.isNormal = true) ∧
  ∀ t : TrayId,
    (s.isNormal = false → (s.tray t).state ≠ .queued ∧ (s.tray t).state ≠ .inrush) ∧
    (s.isNormal = false → s.onBattery = false → (s.tray t).state ≠ .run ∧ (s.tray t).state ≠ .parked)

/-- Usable capacity is the capacity that the holdup state chooses (R29). -/
abbrev State.usableAgrees (s : State) : Prop :=
  s.acct.usable = usableFor s.hup.state s.hup.cold s.acct.shelf s.acct.battery

/-- A locked tray's frozen commitment covers its grant while it waits or starts (R4, R21). -/
abbrev State.frozenCovers (s : State) : Prop :=
  ∀ t : TrayId, (s.tray t).locked = true → (s.tray t).state = .queued ∨ (s.tray t).state = .inrush →
    (s.tray t).grant ≤ (s.tray t).frozen

/-- Outside RECOVERING committed is never greater than usable capacity (R30). -/
abbrev State.budgetKept (s : State) : Prop := s.isSettled = true → s.acct.committed ≤ s.acct.usable

/-- The records, the sums, the collections, the Holdup Controller and the budget agree. -/
abbrev State.rackSound (s : State) : Prop :=
  s.recordsLawful ∧ s.committedSums ∧ s.collectionsAgree ∧ s.holdupSound ∧ s.usableAgrees ∧ s.frozenCovers ∧ s.budgetKept

/-- A command that needs a LIVE lease (R141). -/
def needsLease : Instr → Bool
  | .grant .. | .release .. | .setTray .. | .clearFault .. | .planOpen .. | .planPoint .. | .planPut .. | .planLength ..
  | .planCommit .. | .planAbort .. | .setShelf .. | .setLimits .. | .setTiming .. | .startRack .. | .clearZone ..
  | .clearTrap .. | .saveConfig .. => true
  | _ => false

/-- A supply edge, a reset edge, or the expiry of the start delay (R152 to R155). -/
def suppliesOrResets : Instr → Bool
  | .vstbyRise | .vstbyFall | .vcoreFall | .vcoreRecovery | .startDelayExpiry | .resetNAsserted | .resetNDeasserted => true
  | _ => false

/-- The command is the event that ends a reset: the start delay expires with RESET_N deasserted, or RESET_N is deasserted with no
start delay running, and both supplies are up (R153, R154, R155). -/
abbrev State.resetEndsAt (s : State) (c : Instr) : Prop :=
  s.sup.held = true ∧ s.sup.vstby = true ∧ s.sup.vcore = true ∧
    (c = .startDelayExpiry ∧ s.sup.startDelay.isSome = true ∧ s.sup.resetAsserted = false ∨
      c = .resetNDeasserted ∧ s.sup.startDelay = none ∧ s.sup.resetAsserted = true)

/-- The port that a write came in on, for the writes that a port may answer (R131). -/
def sender : Instr → Option Port
  | .unknownRequest p _ => some p
  | i => (requestOf i).map Request.port

/-- A start opportunity starts nothing now: in CADENCE only an expiry offers a start (R65), and in GAP none is taken while
the pace timer runs (R64). -/
abbrev State.startsWait (s : State) : Prop := s.seq.paceMode = .cadence ∨ s.seq.paceTimer.isSome = true

/-- An admission pass would move no tray: the pass is not allowed, or the Park List is empty (R49). -/
abbrev State.nothingToAdmit (s : State) : Prop := s.isNormal = false ∨ s.isSettled = false ∨ s.park = []

/-- No tray's configuration part would newly fail its check (R17). -/
abbrev State.codesPass (s : State) : Prop := ∀ t : TrayId, (s.tray t).failsCheck = false

/-- No pass, start or test at the end of an event finds anything to do, and no read locks a tray: what an event then changes
is its own effect. -/
abbrev State.quiet (s : State) : Prop := s.codesPass ∧ s.startsWait ∧ s.nothingToAdmit ∧ s.warmRegain = false

/-- The positions of the active plan whose entry fails its check and has not been reported, lowest first (R20). -/
def State.unreported (s : State) : List Nat :=
  (List.range s.seq.plan.length).filter fun i => (s.seq.plan[i]?).any fun e => e.code == .failing && !e.reported

/-- The trap after a failure at each of the given plan positions in turn: an empty trap latches the first with more clear, and every
failure that finds it latched sets more (R19). -/
def Trap.afterEntries (r : Trap) (is : List Nat) : Trap :=
  match r.latched, is with
  | _, [] => r
  | none, i :: rest => { latched := some (.plan i), more := !rest.isEmpty }
  | some _, _ :: _ => { r with more := true }

/-- The second state is the first after the first report of every failing plan entry not reported before: the reported marks, the
trap, an INTEGRITY entry for each position, and the INTEGRITY flag of both ports; nothing else changes (R19, R20). -/
abbrev State.entriesReported (s u : State) : Prop :=
  u = { s with
    seq := { s.seq with plan := s.seq.plan.map fun e => if e.code = .failing then { e with reported := true } else e }
    trap := s.trap.afterEntries s.unreported, journal := u.journal, portA := u.portA, portB := u.portB } ∧
  (s.unreported = [] → u = s) ∧
  u.journal.next = s.journal.next + BitVec.ofNat 16 s.unreported.length ∧
  (s.seq.plan.length ≤ 32 → (s.unreported.map fun i => (Kind.integrity, (none : Option Subject), some i)) <:+
    u.journal.entries.map fun e => (e.kind, e.subject, e.value)) ∧
  ∀ p : Port, s.unreported ≠ [] → u.port p = { s.port p with
    flags := (s.port p).flags ||| 0x1000, released := (s.port p).released ||| (0x1000 &&& (s.port p).urgent)
    unread := (u.port p).unread, gap := (u.port p).gap }

/-- A tray's record replaced within a claim that leaves every collection as it is: the record, the change that committed
takes, and the enable latch (R3, R30). -/
def State.claimed (s : State) (t : TrayId) (r : Tray) : State :=
  { s with
    trays := s.trays.set t r
    acct := { s.acct with committed := s.acct.committed - (s.tray t).commitment + r.commitment }
    hold := { s.hold with enable := s.hold.enable.set t r.state.enabled } }

end Sys2Proof.Machine
end

