-- ==== Sys2Proof/WellFormed.lean ====
section
/-! DEFINITION. Which terms of Instr stand for an event that can arrive: a raw write that no other row names, a frame that is
one complete frame, a conversion result within its channel's range. -/

namespace Sys2Proof

/-- The bytes of an UNKNOWN_REQUEST are a write of at least one byte that fails the frame check or names no command (R131,
R134). -/
def unknownBytes (p : Port) (bytes : List Byte) : Bool :=
  match bytes, Machine.parseRequest p bytes with
  | [], _ => false
  | _, .command _ => false
  | _, _ => true

/-- A command that stands for an event of the row it names. -/
def Instr.wellFormed : Instr → Bool
  | .unknownRequest p bytes => unknownBytes p bytes
  | .replyFrame bytes => Machine.completeFrame bytes == some bytes
  | .strayFrame bytes => !bytes.isEmpty
  | .conversion ch (some w) => decide (w.toNat ≤ Machine.channelMax ch)
  | _ => true

end Sys2Proof
end

