-- ==== Sys2Proof/Certificates/Slice0/Obligations.lean ====
section
/-! DEFINITION. The statements about the model, one for each rule or group of commands. -/

open Sys2Proof Sys2Proof.Machine

/-! ### The step, the queue and the reset -/

/-- A step takes the command at the front of the queue and runs it on the state with the queue's rest: events are taken
one after the other (R7). -/
def Obligations.StepRunsFrontCommand : Prop :=
  ∀ (c : Instr) (rest : List Instr) (s : State),
    step { s with pending := c :: rest } = exec c { s with pending := rest }

/-- Every command ends in a next state, and none changes the queue, for the spec gives no command a stop (R7, R136;
log entry 6). -/
def Obligations.EveryCommandCompletesAndKeepsTheQueue : Prop :=
  ∀ (i : Instr) (s : State), ∃ t, exec i s = .next t ∧ t.pending = s.pending

/-- What a well-formed command other than a supply or reset event leaves as it was: the reset record, the pins, every unit's records and
settings, and the ports' leases and answers, but for the few commands that write each of them (R1, R53, R74, R92, R106,
R121, R130, R136, R142, R145, R156, R158). -/
def Obligations.CommandsLeaveOtherUnitsAlone : Prop :=
  ∀ (i : Instr) (s t : State), i.wellFormed = true → exec i s = .next t → suppliesOrResets i = false →
    ((t.hold.cause, t.hold.adopted, t.hold.restored, t.hold.result) =
      (s.hold.cause, s.hold.adopted, s.hold.restored, s.hold.result)) ∧
    (match i with | .pfailAsserted | .pfailDeasserted => True | _ => t.sup = s.sup) ∧
    (match i with | .setTray .. => True | _ => ∀ n : TrayId, t.cfg n = s.cfg n ∧ (t.tray n).code = (s.tray n).code) ∧
    (match i with
      | .setShelf .. => True
      | _ => t.acct.redundancy = s.acct.redundancy ∧ t.acct.autoRestart = s.acct.autoRestart) ∧
    (match i with | .setLimits .. | .clearZone .. | .censusClose | .replyFrame _ => True | _ => t.leak = s.leak) ∧
    (match i with | .setLimits .. | .setTiming .. | .conversion .. | .censusClose => True | _ => t.sense = s.sense) ∧
    (match i with | .replyFrame _ | .replyTimeout | .censusClose => True | _ => t.link.stations = s.link.stations) ∧
    (match i with
      | .replyFrame _ | .replyTimeout => True
      | _ => t.link.outstanding = s.link.outstanding ∧ t.link.replyTimer = s.link.replyTimer ∧
          t.link.rounds = s.link.rounds) ∧
    (match i with | .setLimits .. => True | _ => t.hup.cutoff = s.hup.cutoff) ∧
    (match i with
      | .setTiming .. => True
      | _ => t.link.replyTimeout = s.link.replyTimeout ∧ t.hup.qualification = s.hup.qualification ∧
          (t.hup.s1, t.hup.s2, t.hup.s3) = (s.hup.s1, s.hup.s2, s.hup.s3) ∧
          (t.seq.paceMode, t.seq.paceInterval, t.seq.k) = (s.seq.paceMode, s.seq.paceInterval, s.seq.k) ∧
          (t.seq.w0, t.seq.w1, t.seq.w2) = (s.seq.w0, s.seq.w1, s.seq.w2)) ∧
    (match i with
      | .planCommit .. => True
      | _ => t.seq.planRev = s.seq.planRev ∧ t.seq.keys = s.seq.keys ∧
          t.seq.plan.map (fun e => (e.tray, e.code)) = s.seq.plan.map (fun e => (e.tray, e.code))) ∧
    (match i with
      | .planOpen .. | .planPoint .. | .planPut .. | .planLength .. | .planCommit .. | .planAbort .. | .dropLease ..
      | .leaseLapsed _ => True
      | _ => t.seq.staging = s.seq.staging) ∧
    (match i with | .saveConfig .. | .storeWriteComplete => True | _ => t.store = s.store) ∧
    ∀ p : Port,
      ((match i with | .setAlerts q .. => q ≠ p | _ => True) →
        (t.port p).enable = (s.port p).enable ∧ (t.port p).urgent = (s.port p).urgent) ∧
      ((match i with | .claimLease q .. | .renewLease q _ | .dropLease q _ | .leaseLapsed q => q ≠ p | _ => True) →
        (t.port p).lease = (s.port p).lease) ∧
      (i ≠ .storeWriteComplete → sender i ≠ some p →
        ((t.port p).state, (t.port p).response, (t.port p).execTag) =
          ((s.port p).state, (s.port p).response, (s.port p).execTag))

/-- The machine right after a POWER_ON with PFAIL_N deasserted and no stored image (R2, R26, R73, R91, R106, R107, R130, R145,
R149, R153, R157; log entries 2, 3). -/
def Obligations.ResetLeavesTheRackDark : Prop :=
  let s := State.reset
  s.pending = [] ∧
  (∀ t : TrayId, s.tray t = Tray.fresh TrayConfig.default .matching ∧ s.hold.enable[t] = false) ∧
  s.queue = [] ∧ s.park = [] ∧ (∀ j : SlotId, s.seq.slots[j] = none) ∧ s.seq.plan = [] ∧ s.trap.latched = none ∧
  (s.acct.shelf = 0 ∧ s.acct.battery = 0 ∧ s.acct.usable = 0 ∧ s.acct.committed = 0 ∧ s.acct.mode = .settled) ∧
  (s.hup.state = .regain ∧ s.hup.cold = true ∧ s.hup.qualTimer = some 3000 ∧ s.hup.stage = none ∧ s.hup.episodes = 0) ∧
  (∀ z : ZoneId, (s.zone z).state = .dry ∧ (s.zone z).wetCount = 0 ∧ (s.zone z).lastClass = none ∧
    s.hold.closed[z] = false ∧ s.hold.leakLatch[z] = false) ∧
  (∀ a : StationId, s.station a = Station.fresh) ∧ s.link.outstanding.map Poll.address = some 32 ∧
  (∀ p : Port, s.port p = PortRec.fresh) ∧ s.journal.entries = [] ∧ s.journal.next = 0 ∧
  s.sense.published.census = 0 ∧ s.sense.published.captured = none ∧ s.sense.timer = some 100 ∧
  s.hold.cause = .powerOn ∧ s.hold.result = .defaults ∧ s.sup.held = false

/-! ### The manager ports (chapter 8) -/

/-- A write to a port that is EXECUTING takes no request: PORT_OVERRUN is set in that port's own flags, released at once when
it is urgent there, and nothing else changes (R132, R146). That a request, raw bytes and WRITE_REFUSED_EXECUTING are three
presentations of such a write and are refused alike is the model's reading (log entry 31, DEDUCED). -/
def Obligations.ExecutingPortRefusesWrites : Prop :=
  ∀ (s : State) (p : Port), s.sup.held = false → (s.port p).state = .executing →
    let t := s.setPort p { s.port p with
      flags := (s.port p).flags ||| 0x8000, released := (s.port p).released ||| (0x8000 &&& (s.port p).urgent) }
    exec (.writeRefusedExecuting p) s = .next t ∧
    (∀ bytes, exec (.unknownRequest p bytes) s = .next t) ∧
    (∀ i r, requestOf i = some r → r.port = p → exec i s = .next t)

/-- A command that needs a lease is refused with NO_LEASE at a port without one, and changes only that port's response
(R134 step 4, R141). -/
def Obligations.NoLeaseNoChange : Prop :=
  ∀ (i : Instr) (r : Request) (s : State), requestOf i = some r → needsLease i = true → s.takes r.port →
    (s.port r.port).lease = none → exec i s = .next (respond r.port r.tag ⟨.noLease, []⟩ s)

/-- A write whose bytes fail the frame check is answered BAD_FRAME with the second byte, or 0, as its tag; one whose command byte
names no command UNKNOWN; and one whose payload length is not its command's BAD_FRAME (R134 steps 1 to 3). -/
def Obligations.BadWritesAreRefused : Prop :=
  ∀ (s : State) (p : Port) (bytes : List Byte), s.takes p → bytes ≠ [] →
    let framed := 4 ≤ bytes.length ∧ bytes.length ≤ 28 ∧ bytes.length = (bytes.getD 2 0).toNat + 4 ∧
      crc8 bytes.dropLast = bytes.getLastD 0
    (¬framed → exec (.unknownRequest p bytes) s = .next (respond p (bytes.getD 1 0) ⟨.badFrame, []⟩ s)) ∧
    (framed → payloadLength (bytes.getD 0 0) = none →
      exec (.unknownRequest p bytes) s = .next (respond p (bytes.getD 1 0) ⟨.unknown, []⟩ s)) ∧
    (∀ n, framed → payloadLength (bytes.getD 0 0) = some n → n ≠ (bytes.getD 2 0).toNat →
      exec (.unknownRequest p bytes) s = .next (respond p (bytes.getD 1 0) ⟨.badFrame, []⟩ s))

/-- The bytes of every request are read back as that request: no parameter loses a bit, and the CRC-8 and the length pass
(R134, R163). -/
def Obligations.RequestBytesSpellTheRequest : Prop :=
  ∀ (i : Instr) (r : Request), requestOf i = some r → parseRequest r.port r.bytes = .command i

/-! ### Reads -/

/-- READ_STATUS, READ_TRAY, READ_STATION, READ_ZONE and READ_SNAPSHOT return the records named as they stand, or RANGE, and change
nothing but the port's response: READ_STATUS 32, 38, 16 or 38 bytes that begin with the census number of the published bank,
READ_SNAPSHOT a part that begins with its bank's, READ_TRAY of a tray whose part passes its check, READ_ZONE while every tray's
part does (R8, R104, R119, R128, R139). The model's choices in the layouts of these responses are log entries 20, 26, 48, 53, 56 and 61. -/
def Obligations.ReadsReturnRecordsAndChangeNone : Prop :=
  (∀ (s : State) (p : Port) (tag part : Byte), s.takes p →
     (part.toNat ≤ 3 → ∃ bytes, s.statusPart part = some bytes ∧
       bytes.length = [32, 38, 16, 38].getD part.toNat 0 ∧ bytes.take 2 = bytes2 s.sense.census ∧
       exec (.readStatus p tag part) s = .next (respond p tag ⟨.ok, bytes⟩ s)) ∧
     (3 < part.toNat → exec (.readStatus p tag part) s = .next (respond p tag ⟨.range, []⟩ s))) ∧
  (∀ (s : State) (p : Port) (tag b : Byte), s.takes p →
     (∀ t, trayOf b = some t → (s.tray t).failsCheck = false →
       exec (.readTray p tag b) s = .next (respond p tag ⟨.ok, s.trayPayload t⟩ s)) ∧
     (31 < b.toNat → exec (.readTray p tag b) s = .next (respond p tag ⟨.range, []⟩ s))) ∧
  (∀ (s : State) (p : Port) (tag b : Byte), s.takes p →
     (∀ a, stationOf b = some a →
       exec (.readStation p tag b) s = .next (respond p tag ⟨.ok, s.stationPayload a⟩ s)) ∧
     (41 < b.toNat → exec (.readStation p tag b) s = .next (respond p tag ⟨.range, []⟩ s))) ∧
  (∀ (s : State) (p : Port) (tag b : Byte), s.takes p →
     (∀ z, zoneOf b = some z → s.codesPass →
       exec (.readZone p tag b) s = .next (respond p tag ⟨.ok, s.zonePayload z⟩ s)) ∧
     (7 < b.toNat → exec (.readZone p tag b) s = .next (respond p tag ⟨.range, []⟩ s))) ∧
  (∀ (s : State) (p : Port) (tag part : Byte), s.takes p →
     (part.toNat ≤ 2 → ∃ bytes, s.sense.published.part part = some bytes ∧
       bytes.take 2 = bytes2 s.sense.published.census ∧
       exec (.readSnapshot p tag part) s = .next (respond p tag ⟨.ok, bytes⟩ s)) ∧
     (2 < part.toNat → exec (.readSnapshot p tag part) s = .next (respond p tag ⟨.range, []⟩ s)))

/-- A read of a part that fails its check locks its tray within the request: with no zone in LEAK its state, grant and revision
stay and its commitment is frozen, the trap holds a failure, INTEGRITY is set on both ports, and the response already shows the
record (R8, R18, R19). That it shows the fields of the locked tray as stored is the model's reading (log entry 61, DEDUCED). -/
def Obligations.FailedCheckLocksTheTray : Prop :=
  ∀ (s : State) (p : Port) (tag b : Byte) (t : TrayId), s.takes p →
    trayOf b = some t → (s.tray t).code = .failing → (s.tray t).locked = false → s.leakZones = [] →
    ∃ u, exec (.readTray p tag b) s = .next u ∧
      u.tray t = { s.tray t with locked := true, frozen := (s.tray t).commitment } ∧
      u.acct = s.acct ∧ u.hold = s.hold ∧ u.trap.latched.isSome = true ∧
      (s.trap.latched = none → u.trap.latched = some (.tray t)) ∧
      (∀ q : Port, (u.port q).flags &&& 0x1000 = 0x1000) ∧
      (u.port p).response = some { status := .ok, tag := tag, payload := u.trayPayload t }

/-- READ_PLAN part 0 returns 37 bytes and reports each failing entry not reported before: its reported mark, the trap, its INTEGRITY
entry and the flag on both ports, and changes nothing else. Part 1 returns 34 bytes, the copy only to its holder; above part 1
RANGE (R19, R20, R58, R165). The model's choices: the entries are tested lowest first (log entry 44, DEDUCED), and part 1 sends an
empty position as 0x40 (log entry 52, DESIGN CHOICE). -/
def Obligations.ReadPlanReturnsItsPart : Prop :=
  ∀ (s : State) (p : Port) (tag part : Byte), s.takes p →
    (part = 0 → ∃ u, s.entriesReported u ∧
      exec (.readPlan p tag part) s = .next (respond p tag ⟨.ok, s.planPart0 p⟩ u)) ∧
    (part = 1 → exec (.readPlan p tag part) s = .next (respond p tag ⟨.ok, s.planPart1 p⟩ s)) ∧
    (1 < part.toNat → exec (.readPlan p tag part) s = .next (respond p tag ⟨.range, []⟩ s)) ∧
    (s.planPart0 p).length = 37 ∧ (s.planPart1 p).length = 34 ∧
    (s.seq.staging.holder ≠ some p → ((s.planPart0 p).drop 3).take 2 = [0xFF, 0xFF]) ∧
    (s.seq.staging.holder ≠ some p → (s.planPart1 p).drop 2 = List.replicate 32 0xFF)

/-- READ_JOURNAL gives up to four entries from the port's cursor in ring order with the gap flag as it stood and the unread count after
the move, moves the cursor past them and clears the gap flag, and the ring and the other port stay. An entry is placed at the
ring's end with the next sequence number and the published census number; a full ring drops its oldest, and a port whose cursor
marks it keeps an unread count of 48 and takes the gap flag (R149, R150, R151). The model's choices: the cursor is held as the unread
count (log entry 35), and the reason codes that R166 leaves to be read (log entries 19 and 62). -/
def Obligations.JournalCursorsAndRing : Prop :=
  (∀ (s : State) (p : Port) (tag : Byte), s.takes p → s.journalBounded →
     let taken := (s.journal.entries.drop (s.journal.entries.length - (s.port p).unread)).take 4
     let left := (s.port p).unread - min 4 (s.port p).unread
     exec (.readJournal p tag) s = .next (s.setPort p { s.port p with
       state := .ready, execTag := none, unread := left, gap := false
       response := some { status := .ok, tag := tag
                          payload := [byte taken.length, flag (s.port p).gap, byte left] ++ taken.flatMap Entry.bytes } })) ∧
  (∀ (s : State) (k : Kind) (subj : Option Subject) (v : Option Nat) (r : Option Reason), s.journalBounded →
     let t := journalise k subj v r s
     let e : Entry := { seq := s.journal.next, census := s.sense.census, kind := k, subject := subj,
                        value := v.map fun n => min n 65535, reason := r.map Reason.code }
     let full := s.journal.entries.length = 48
     t.journal.next = s.journal.next + 1 ∧
     (¬full → t.journal.entries = s.journal.entries ++ [e]) ∧
     (full → t.journal.entries = s.journal.entries.tail ++ [e]) ∧
     ∀ p : Port,
       (¬full → (t.port p).unread = (s.port p).unread + 1 ∧ (t.port p).gap = (s.port p).gap) ∧
       (full → (s.port p).unread < 48 → (t.port p).unread = (s.port p).unread + 1 ∧ (t.port p).gap = (s.port p).gap) ∧
       (full → (s.port p).unread = 48 → (t.port p).unread = 48 ∧ (t.port p).gap = true))

/-! ### Alerts and leases (chapters 8 and 9) -/

/-- READ_ALERTS, SET_ALERTS and ACK_ALERTS: the masks are replaced and a flag now urgent is released; the named flags and their
released marks are cleared; each answers with the record after it (R148). -/
def Obligations.AlertCommandsChangeOneRecord : Prop :=
  ∀ (s : State) (p : Port) (tag : Byte), s.takes p →
    let r := s.port p
    exec (.readAlerts p tag) s = .next (respond p tag ⟨.ok, r.alertPayload⟩ s) ∧
    (∀ enable urgent : Half,
      let r' := { r with enable := enable, urgent := urgent, released := r.released ||| (r.flags &&& urgent) }
      exec (.setAlerts p tag enable urgent) s = .next (respond p tag ⟨.ok, r'.alertPayload⟩ (s.setPort p r'))) ∧
    (∀ mask : Half,
      let r' := { r with flags := r.flags &&& ~~~mask, released := r.released &&& ~~~mask }
      exec (.ackAlerts p tag mask) s = .next (respond p tag ⟨.ok, r'.alertPayload⟩ (s.setPort p r')))

/-- A port's alert line is asserted exactly while some cause has its flag, its released mark and its enable bit set (R147). -/
def Obligations.AlertLineNeedsFlagReleaseAndEnable : Prop :=
  ∀ r : PortRec, r.lineAsserted = true ↔
    ∃ c : Alert, r.flags.getLsbD c.bit = true ∧ r.released.getLsbD c.bit = true ∧ r.enable.getLsbD c.bit = true

/-- CLAIM_LEASE, RENEW_LEASE and DROP_LEASE: the lease and its timer, the LEASE entries, the release of a staging the port holds,
and the refusals (R57, R137). The model's choices: the response without a lease (log entry 27, DEDUCED), and the port as subject of
the entries with reasons DROPPED and LEASE_ENDED (log entry 57, DEDUCED). -/
def Obligations.LeaseCommandsFollowTheirTable : Prop :=
  ∀ (s : State) (p : Port) (tag : Byte) (term : Half), s.takes p →
    (term.toNat = 0 ∨ 600 < term.toNat → exec (.claimLease p tag term) s = .next (respond p tag ⟨.range, []⟩ s)) ∧
    (1 ≤ term.toNat → term.toNat ≤ 600 →
      let t := setLease p (some { term := term.toNat, remaining := 1000 * term.toNat }) s
      let t := if (s.port p).lease = none then journalise .lease (some (.port p)) none (some .claimed) t else t
      exec (.claimLease p tag term) s = .next (respond p tag ⟨.ok, (t.port p).leasePayload⟩ t)) ∧
    ((s.port p).lease = none →
      exec (.renewLease p tag) s = .next (respond p tag ⟨.noLease, []⟩ s) ∧
      exec (.dropLease p tag) s = .next (respond p tag ⟨.ok, (s.port p).leasePayload⟩ s)) ∧
    (∀ l, (s.port p).lease = some l →
      (let t := setLease p (some { term := l.term, remaining := 1000 * l.term }) s
       exec (.renewLease p tag) s = .next (respond p tag ⟨.ok, (t.port p).leasePayload⟩ t)) ∧
      (let t := journalise .lease (some (.port p)) none (some .dropped) (setLease p none s)
       let t := if s.seq.staging.holder = some p then
           journalise .planDiscard (some (.port p)) none (some .leaseEnded) (clearStaging t) else t
       exec (.dropLease p tag) s = .next (respond p tag ⟨.ok, (t.port p).leasePayload⟩ t)))

/-- A lease that lapses becomes NONE with a LEASE_LAPSED entry, the alert cause set on both ports, and a staging the port holds
discarded; nothing else changes (R138). The model's choices: an expiry at a port with no live lease changes nothing (log entry 5,
DESIGN CHOICE), and the PLAN_DISCARD entry has the port as subject (log entry 57, DEDUCED). -/
def Obligations.LeaseLapseEndsTheLease : Prop :=
  ∀ (s : State) (p : Port), s.sup.held = false →
    ((s.port p).lease = none → exec (.leaseLapsed p) s = .next s) ∧
    ((s.port p).lease.isSome = true →
      let t := journalise .leaseLapsed (some (.port p)) none none (s.setPort p { s.port p with lease := none })
      let t := t.mapPorts fun r =>
        { r with flags := r.flags ||| 0x2000, released := r.released ||| (0x2000 &&& r.urgent) }
      let t := if s.seq.staging.holder = some p then
          journalise .planDiscard (some (.port p)) none (some .leaseEnded) (clearStaging t) else t
      exec (.leaseLapsed p) s = .next t)

/-! ### GRANT, RELEASE, SET_TRAY and CLEAR_FAULT (chapters 1 and 2) -/

/-- GRANT's checks in their order; a refusal changes nothing but the response, which carries the tray's state, grant, commitment
and revision and the headroom, and is empty for a tray number above 31 (R36, R40; log entry 30). -/
def Obligations.GrantChecksInOrder : Prop :=
  ∀ (s : State) (p : Port) (tag b : Byte) (amount : Half) (rev park : Byte), s.leased p →
    (31 < b.toNat → exec (.grant p tag b amount rev park) s = .next (respond p tag ⟨.range, []⟩ s)) ∧
    ∀ t, trayOf b = some t →
      let r := s.tray t
      let refused (st : Status) : Prop :=
        exec (.grant p tag b amount rev park) s = .next (respond p tag ⟨st, s.grantPayload t⟩ s)
      if amount = 0 ∨ 4095 < amount.toNat ∨ 1 < park.toNat then refused .range
      else if rev ≠ r.revision then refused .stale
      else if r.locked = true then refused .locked
      else if r.state = .isolated ∨ r.state = .faulted then refused .state
      else s.acct.mode = .recovering → (r.state ≠ .run ∨ r.grant < amount.toNat) → refused .recovering

/-- GRANT on an IDLE tray: HOLDUP_STATE outside NORMAL; otherwise QUEUED at the queue's tail when the larger of the inrush
allowance and the amount fits the headroom, PARKED when it does not and the park option is on, and else NO_HEADROOM (R37, R40). The
layout of the response (log entry 30, DEDUCED) and the codes of the reasons QUEUED and PARKED (log entry 19, DEDUCED) are the model's
reading. -/
def Obligations.GrantOnAnIdleTray : Prop :=
  ∀ (s : State) (p : Port) (tag b : Byte) (amount : Half) (rev park : Byte) (t : TrayId), s.leased p →
    trayOf b = some t → grantCheck t amount rev park s = none → (s.tray t).state = .idle → (s.tray t).overCap = false →
    s.codesPass → s.startsWait →
    let g := amount.toNat
    let c := max (s.cfg t).inrush g
    let cmd := exec (.grant p tag b amount rev park) s
    let granted : Tray := { s.tray t with
      grant := g, revision := (s.tray t).revision + 1, faultCause := none, adopted := false }
    (s.isNormal = false → cmd = .next (respond p tag ⟨.holdupState, s.grantPayload t⟩ s)) ∧
    (s.isNormal = true → c ≤ s.headroom →
      let q := s.claimed t { granted with state := .queued, commitment := c }
      let u := grantEntry t g .queued { q with
        queue := s.queue ++ [t]
        seq := { s.seq with paceTimer :=
          if s.seq.paceMode = .cadence ∧ s.queue = [] then some s.seq.paceInterval else s.seq.paceTimer } }
      cmd = .next (respond p tag ⟨.ok, u.grantPayload t⟩ u)) ∧
    (s.isNormal = true → s.headroom < c → park = 1 →
      let q := s.claimed t { granted with state := .parked, commitment := 0, deferred := false }
      let u := grantEntry t g .parked { q with park := insertBy s.parkBefore t s.park }
      cmd = .next (respond p tag ⟨.ok, u.grantPayload t⟩ u)) ∧
    (s.isNormal = true → s.headroom < c → park = 0 →
      cmd = .next (respond p tag ⟨.noHeadroom, s.grantPayload t⟩ s))

/-- GRANT on a QUEUED, INRUSH or RUN tray: at the present grant it is accepted with no change but a cleared adopted mark; a lower
amount is taken; a higher one needs NORMAL and headroom for the rise in commitment (R2, R6, R38). That an equal amount leaves the
deferred mark is the model's choice (log entry 18, DEDUCED), and the layout of the response is log entry 30 (DEDUCED). -/
def Obligations.GrantResizesAStartedTray : Prop :=
  ∀ (s : State) (p : Port) (tag b : Byte) (amount : Half) (rev park : Byte) (t : TrayId), s.leased p → s.quiet →
    trayOf b = some t → grantCheck t amount rev park s = none →
    (s.tray t).state = .queued ∨ (s.tray t).state = .inrush ∨ (s.tray t).state = .run →
    let r := s.tray t
    let g := amount.toNat
    let c := if r.state = .run then g else max r.cfg.inrush g
    let cmd := exec (.grant p tag b amount rev park) s
    let u := grantEntry t g .resized (s.claimed t { r with
      grant := g, commitment := c, revision := r.revision + 1, deferred := false, adopted := false })
    (g = r.grant →
      cmd = .next (respond p tag ⟨.ok, s.grantPayload t⟩ (s.setRecord t { r with adopted := false }))) ∧
    (r.grant < g → s.isNormal = false → cmd = .next (respond p tag ⟨.holdupState, s.grantPayload t⟩ s)) ∧
    (r.grant < g → s.isNormal = true → s.headroom < c - r.commitment →
      cmd = .next (respond p tag ⟨.noHeadroom, s.grantPayload t⟩ s)) ∧
    (g < r.grant ∨ r.grant < g ∧ s.isNormal = true ∧ c - r.commitment ≤ s.headroom →
      cmd = .next (respond p tag ⟨.ok, u.grantPayload t⟩ u))

/-- GRANT on a PARKED tray replaces its grant, commits nothing and leaves the tray in its place when the pass that follows does
not run or passes it over as held; a tray alone in the list that is not held and now fits is admitted (R39, R49, R50). The model's
choices: the GRANT entry has reason RESIZED (log entry 51, DESIGN CHOICE), an amount equal to the present grant is taken as any other
(log entry 54, DEDUCED), and the layout of the response (log entry 30, DEDUCED). -/
def Obligations.GrantOnAParkedTray : Prop :=
  ∀ (s : State) (p : Port) (tag b : Byte) (amount : Half) (rev park : Byte) (t : TrayId), s.leased p →
    s.warmRegain = false → trayOf b = some t → grantCheck t amount rev park s = none → (s.tray t).state = .parked →
    let g := amount.toNat
    let c := max (s.cfg t).inrush g
    let cmd := exec (.grant p tag b amount rev park) s
    let u := grantEntry t g .resized (s.claimed t { s.tray t with
      grant := g, commitment := 0, revision := (s.tray t).revision + 1, deferred := false, adopted := false })
    (s.isNormal = false ∨ s.park = [t] ∧ s.held t = true → cmd = .next (respond p tag ⟨.ok, u.grantPayload t⟩ u)) ∧
    (s.isNormal = true → s.isSettled = true → s.park = [t] → s.held t = false → s.codesPass → s.startsWait →
      (s.tray t).lawful → c ≤ s.headroom →
      ∃ v, cmd = .next (respond p tag ⟨.ok, v.grantPayload t⟩ v) ∧ (v.tray t).state = .queued ∧ (v.tray t).grant = g ∧
        (v.tray t).commitment = c ∧ v.park = [] ∧ v.queue = s.queue ++ [t] ∧
        v.acct.committed = s.acct.committed + c ∧ v.acct.usable = s.acct.usable ∧ ∀ t', t' ≠ t → v.tray t' = s.tray t')

/-- RELEASE is refused with STALE, then LOCKED, then STATE for an IDLE, ISOLATED or FAULTED tray; an accepted one makes the tray IDLE with
no grant, commitment or marks, off its collection, with its RELEASE entry. CLEAR_FAULT is refused with STALE, then LOCKED, then
STATE; an accepted one makes the tray IDLE, or ISOLATED when its zone is in LEAK, with tries_left reloaded (R25, R41). The model's
choices here: the value of the OVER_CAP entry of a mark that clears (log entry 17, DEDUCED) and its place before the RELEASE entry
(log entry 46, DESIGN CHOICE), and the layout of the response (log entry 30, DEDUCED). -/
def Obligations.ReleaseAndClearFault : Prop :=
  (∀ (s : State) (p : Port) (tag b rev : Byte), s.leased p →
     (31 < b.toNat → exec (.release p tag b rev) s = .next (respond p tag ⟨.range, []⟩ s)) ∧
     ∀ t, trayOf b = some t →
       let r := s.tray t
       let refused (st : Status) : Prop := exec (.release p tag b rev) s = .next (respond p tag ⟨st, []⟩ s)
       if rev ≠ r.revision then refused .stale
       else if r.locked = true then refused .locked
       else if r.state = .idle ∨ r.state = .isolated ∨ r.state = .faulted then refused .state
       else s.quiet →
         let v := leaveCollection t (if r.overCap = true then overCapCleared t s else s)
         let u := journalise .release (some (.tray t)) none (some (.number r.state.code))
           { v.claimed t { r with
               state := .idle, grant := 0, commitment := 0, revision := r.revision + 1, faultCause := none
               adopted := false, deferred := false, overCap := false } with agenda := .none }
         exec (.release p tag b rev) s = .next (respond p tag ⟨.ok, u.trayPayload t⟩ u)) ∧
  (∀ (s : State) (p : Port) (tag b rev : Byte), s.leased p →
     (31 < b.toNat → exec (.clearFault p tag b rev) s = .next (respond p tag ⟨.range, []⟩ s)) ∧
     ∀ t, trayOf b = some t →
       let r := s.tray t
       let refused (st : Status) : Prop := exec (.clearFault p tag b rev) s = .next (respond p tag ⟨st, []⟩ s)
       if rev ≠ r.revision then refused .stale
       else if r.locked = true then refused .locked
       else if r.state ≠ .faulted then refused .state
       else r.code = .matching → r.lawful →
         let u := s.claimed t { r with
           state := if s.zoneInLeak r.cfg then .isolated else .idle
           faultCause := none, triesLeft := r.cfg.tries, revision := r.revision + 1 }
         exec (.clearFault p tag b rev) s = .next (respond p tag ⟨.ok, u.trayPayload t⟩ u))

/-- SET_TRAY's checks: RANGE, then STALE, then on an unlocked tray STATE for a changed zone outside IDLE and FAULTED, then
RECOVERING and NO_HEADROOM for a rise of a QUEUED or INRUSH tray's commitment; a refusal changes nothing (R23, R141). -/
def Obligations.SetTrayChecksInOrder : Prop :=
  ∀ (s : State) (p : Port) (tag b rev : Byte) (f : TrayFields), s.leased p →
    let refused (st : Status) : Prop := exec (.setTray p tag b rev f) s = .next (respond p tag ⟨st, []⟩ s)
    (31 < b.toNat ∨ TrayFields.config f = none → refused .range) ∧
    ∀ t c, trayOf b = some t → TrayFields.config f = some c →
      let r := s.tray t
      let rise := max c.inrush r.grant - r.commitment
      if rev ≠ r.revision then refused .stale
      else r.failsCheck = false → r.locked = false →
        if c.zone ≠ r.cfg.zone ∧ r.state ≠ .idle ∧ r.state ≠ .faulted then refused .state
        else (r.state = .queued ∨ r.state = .inrush) → 0 < rise →
          (s.acct.mode = .recovering → refused .recovering) ∧
          (s.acct.mode = .settled → s.headroom < rise → refused .noHeadroom)

/-- SET_TRAY on an unlocked tray. In IDLE it replaces the configuration part whole, works out its check code afresh and reloads
tries_left, and a zone in LEAK makes the tray ISOLATED. In any state, an accepted one replaces the part, works out the commitment
again, increments the revision once, keeps the state and the grant but for an IDLE tray given a zone in LEAK, reloads tries_left
or in INRUSH lowers it to the new start tries, clears the self-request marks when self_request is off with the OVER_CAP entry of a
cleared mark, and re-sorts the Park List when the class of a member of a sorted collection changes. Nothing else changes unless
the commitment falls, and then nothing else when there is nothing to admit (R4, R6, R16, R23, R44, R141). The model's choices:
tries_left is reloaded also when start tries keep their value (log entry 22, DEDUCED), both marks clear at once (log entry 23,
DEDUCED), the OVER_CAP entry carries the demand of the last reply (log entry 17, DEDUCED), and the layout of the response (log
entry 30, DEDUCED). -/
def Obligations.SetTrayRewritesAnUnlockedTray : Prop :=
  (∀ (s : State) (p : Port) (tag b rev : Byte) (f : TrayFields) (t : TrayId) (c : TrayConfig), s.leased p →
    trayOf b = some t → TrayFields.config f = some c → rev = (s.tray t).revision → (s.tray t).code = .matching →
    (s.tray t).locked = false → (s.tray t).state = .idle → (s.tray t).lawful →
    let r := s.tray t
    let u := s.claimed t { r with
      cfg := c, frozen := 0, state := if s.zoneInLeak c then .isolated else .idle, commitment := 0
      revision := r.revision + 1, triesLeft := c.tries }
    exec (.setTray p tag b rev f) s = .next (respond p tag ⟨.ok, u.trayPayload t⟩ u)) ∧
  (∀ (s : State) (p : Port) (tag b rev : Byte) (f : TrayFields) (t : TrayId) (c : TrayConfig), s.leased p → s.codesPass →
    trayOf b = some t → TrayFields.config f = some c → rev = (s.tray t).revision → (s.tray t).code = .matching →
    (s.tray t).locked = false → (s.tray t).lawful →
    let r := s.tray t
    let waits : Prop := r.state = .queued ∨ r.state = .inrush
    let commitment := if waits then max c.inrush r.grant else r.commitment
    (c.zone = r.cfg.zone ∨ r.state = .idle ∨ r.state = .faulted) →
    (r.commitment < commitment → s.acct.mode = .settled ∧ commitment - r.commitment ≤ s.headroom) →
    (commitment < r.commitment → s.nothingToAdmit ∧ s.warmRegain = false) →
    let v := if r.overCap = true ∧ c.selfRequest = false
      then journalise .overCap (some (.tray t)) (s.lastDemand t) (some .cleared) s else s
    ∃ park : List TrayId,
      let u := { v.claimed t { r with
          cfg := c, frozen := 0, commitment := commitment, revision := r.revision + 1
          state := if r.state = .idle ∧ s.zoneInLeak c = true then .isolated else r.state
          triesLeft := if r.state = .inrush then min r.triesLeft c.tries else c.tries
          deferred := r.deferred && c.selfRequest, overCap := r.overCap && c.selfRequest } with park := park }
      exec (.setTray p tag b rev f) s = .next (respond p tag ⟨.ok, u.trayPayload t⟩ u) ∧ park.Perm s.park ∧
        (if c.cls ≠ r.cfg.cls ∧ (r.state = .parked ∨ r.state = .inrush ∨ r.state = .run)
          then park.Pairwise (fun a b => u.parkBefore a b = true) else park = s.park))

/-- SET_TRAY on a locked tray passes no check but RANGE and STALE: the part is replaced with a good code, the lock cleared, and the
revision incremented once; a RUN tray goes on running at its grant (R24, R141). That the response carries the record as READ_TRAY lays
it out is the model's reading (log entry 30, DEDUCED). -/
def Obligations.SetTrayUnlocksATray : Prop :=
  ∀ (s : State) (p : Port) (tag b rev : Byte) (f : TrayFields) (t : TrayId) (c : TrayConfig), s.leased p → s.quiet →
    trayOf b = some t → TrayFields.config f = some c → rev = (s.tray t).revision → (s.tray t).locked = true →
    (s.tray t).state ≠ .queued → (s.tray t).state ≠ .inrush → (s.tray t).state ≠ .parked → (s.tray t).lawful →
    ∃ u, exec (.setTray p tag b rev f) s = .next (respond p tag ⟨.ok, u.trayPayload t⟩ u) ∧
      (u.tray t).cfg = c ∧ (u.tray t).code = .matching ∧ (u.tray t).locked = false ∧
      (u.tray t).revision = (s.tray t).revision + 1 ∧ (u.tray t).triesLeft = c.tries ∧
      (u.tray t).grant = (s.tray t).grant ∧ (u.tray t).commitment = (s.tray t).commitment ∧
      (u.tray t).state = (if (s.tray t).state = .faulted ∨ (s.tray t).state = .run then (s.tray t).state
        else if s.zoneInLeak c then .isolated else .idle) ∧
      (∀ t', t' ≠ t → u.tray t' = s.tray t') ∧ u.queue = s.queue ∧ u.park.Perm s.park ∧ u.seq = s.seq ∧
      u.acct.committed = s.acct.committed - (s.tray t).commitment + (s.tray t).commitment

/-! ### The plan staging (chapter 3) -/

/-- PLAN_OPEN is refused with STALE, then with STAGING_HELD while the other port holds the staging; accepted, it reports each failing
entry not reported before, copies the active entries with a bad mark on each that fails, empties the rest, and makes its entry.
PLAN_ABORT by the holder discards the staging with a PLAN_DISCARD entry; any other port is refused with STATE (R20, R54, R57; log
entries 28, 29, 44). -/
def Obligations.PlanOpenAndAbort : Prop :=
  (∀ (s : State) (p : Port) (tag rev : Byte), s.leased p →
     (rev ≠ s.seq.planRev → exec (.planOpen p tag rev) s = .next (respond p tag ⟨.stale, []⟩ s)) ∧
     (∀ q, rev = s.seq.planRev → s.seq.staging.holder = some q → q ≠ p →
       exec (.planOpen p tag rev) s = .next (respond p tag ⟨.stagingHeld, []⟩ s)) ∧
     (rev = s.seq.planRev → s.seq.staging.holder = none ∨ s.seq.staging.holder = some p →
       ∃ (u : State) (g : Staging) (bad : List Byte), s.entriesReported u ∧ g.holder = some p ∧ g.length = s.seq.plan.length ∧ g.pointer = 0 ∧
         (∀ i : Fin 32, ∀ e, s.seq.plan[i.val]? = some e →
           g.positions[i].tray = some e.tray ∧ (g.positions[i].bad = true ↔ e.code = .failing)) ∧
         (∀ i : Fin 32, s.seq.plan.length ≤ i.val → g.positions[i].tray = none ∧ g.positions[i].bad = false) ∧
         (∀ i : Fin 32, byte i.val ∈ bad ↔ g.positions[i].bad = true) ∧
         exec (.planOpen p tag rev) s = .next (respond p tag ⟨.ok, [s.seq.planRev, byte g.length] ++ bad⟩
           (journalise .planOpen (some (.port p)) none none { u with seq := { u.seq with staging := g } })))) ∧
  (∀ (s : State) (p : Port) (tag : Byte), s.leased p →
     (s.seq.staging.holder ≠ some p → exec (.planAbort p tag) s = .next (respond p tag ⟨.state, []⟩ s)) ∧
     (s.seq.staging.holder = some p →
       exec (.planAbort p tag) s = .next (respond p tag ⟨.ok, []⟩
         (journalise .planDiscard (some (.port p)) none (some .aborted) { s with seq := { s.seq with staging :=
           { s.seq.staging with positions := Vector.replicate 32 { tray := none, bad := false }, holder := none } } }))))

/-- PLAN_POINT, PLAN_PUT and PLAN_LENGTH: refused without a lease, with STATE for a port that does not hold the staging, and with
RANGE outside the parameter's range; otherwise the edit of the table, answered with the pointer and the length, and nothing else
changes (R55, R141). -/
def Obligations.StagingEditsFollowTheirTable : Prop :=
  ∀ (s : State) (p : Port) (tag x : Byte), s.takes p →
    let g := s.seq.staging
    let refused (st : Status) (i : Instr) : Prop := exec i s = .next (respond p tag ⟨st, []⟩ s)
    let edited (g' : Staging) : Host.Outcome State Fault Refusal :=
      .next (respond p tag ⟨.ok, [byte g'.pointer.val, byte g'.length]⟩ { s with seq := { s.seq with staging := g' } })
    ((s.port p).lease = none →
      refused .noLease (.planPoint p tag x) ∧ refused .noLease (.planPut p tag x) ∧ refused .noLease (.planLength p tag x)) ∧
    ((s.port p).lease.isSome = true → g.holder ≠ some p →
      refused .state (.planPoint p tag x) ∧ refused .state (.planPut p tag x) ∧ refused .state (.planLength p tag x)) ∧
    ((s.port p).lease.isSome = true → g.holder = some p →
      (31 < x.toNat → refused .range (.planPoint p tag x) ∧ refused .range (.planPut p tag x)) ∧
      (32 < x.toNat → refused .range (.planLength p tag x)) ∧
      (∀ i, trayOf x = some i → exec (.planPoint p tag x) s = edited { g with pointer := i }) ∧
      (∀ t, trayOf x = some t → exec (.planPut p tag x) s = edited { g with
        positions := g.positions.set g.pointer { tray := some t, bad := false }, pointer := g.pointer + 1 }) ∧
      (x.toNat ≤ 32 → exec (.planLength p tag x) s = edited { g with length := x.toNat }))

/-- PLAN_COMMIT is refused with STATE for a port that does not hold the staging, with RANGE naming the lowest judged position
that is empty or bad, and with DUPLICATE naming the lowest that repeats a tray (R56). -/
def Obligations.PlanCommitJudgesTheCopy : Prop :=
  ∀ (s : State) (p : Port) (tag : Byte), s.leased p →
    let judged := s.seq.staging.positions.toList.take s.seq.staging.length
    let sound (i : Nat) : Prop := ∃ t, judged[i]? = some { tray := some t, bad := false }
    (s.seq.staging.holder ≠ some p → exec (.planCommit p tag) s = .next (respond p tag ⟨.state, []⟩ s)) ∧
    (∀ i, s.seq.staging.holder = some p → i < judged.length → ¬sound i → (∀ j, j < i → sound j) →
      exec (.planCommit p tag) s = .next (respond p tag ⟨.range, [byte i]⟩ s)) ∧
    (∀ i j, s.seq.staging.holder = some p → (∀ k, k < judged.length → sound k) → j < i → i < judged.length →
      judged[j]? = judged[i]? → (judged.take i).Nodup →
      exec (.planCommit p tag) s = .next (respond p tag ⟨.duplicate, [byte i]⟩ s))

/-- An accepted PLAN_COMMIT makes the judged trays the active plan with good codes and cleared reported marks, increments the plan
revision, rebuilds the keys, re-sorts the Park List and releases the staging, with its entry (R9, R56; log entry 29). -/
def Obligations.PlanCommitReplacesThePlan : Prop :=
  ∀ (s : State) (p : Port) (tag : Byte) (ts : List TrayId), s.leased p → s.codesPass → s.seq.staging.holder = some p →
    s.seq.staging.positions.toList.take s.seq.staging.length = ts.map (fun t => { tray := some t, bad := false }) →
    ts.Nodup →
    ∃ u, exec (.planCommit p tag) s = .next (respond p tag ⟨.ok, []⟩
        (journalise .planCommit (some (.port p)) (some (s.seq.planRev + 1).toNat) none u)) ∧
      u.seq.plan = ts.map (fun t => { tray := t, code := .matching, reported := false }) ∧
      u.seq.planRev = s.seq.planRev + 1 ∧ u.seq.staging.holder = none ∧
      (∀ i t, ts[i]? = some t → u.key t = i) ∧ (∀ t, t ∉ ts → u.key t = 32 + t.val) ∧
      u.park.Perm s.park ∧ u.park.Pairwise (fun a b => u.parkBefore a b = true) ∧
      u.trays = s.trays ∧ u.queue = s.queue ∧ u.acct = s.acct ∧ u.hold = s.hold ∧ u.agenda = s.agenda

/-! ### Settings, START_RACK, CLEAR_ZONE, CLEAR_TRAP and SAVE_CONFIG -/

/-- SET_SHELF takes on or off for each setting and RANGE otherwise; both settings are replaced, a repeated redundancy forms no claim
and changes nothing more, and a changed one makes shelf capacity the sum of the ratings counted, less the largest when
redundancy is on (R27, R35). The order of the account's fields in the response is the model's reading (log entry 26, DEDUCED). -/
def Obligations.SetShelfReplacesBothSettings : Prop :=
  ∀ (s : State) (p : Port) (tag red auto : Byte), s.leased p →
    (1 < red.toNat ∨ 1 < auto.toNat → exec (.setShelf p tag red auto) s = .next (respond p tag ⟨.range, []⟩ s)) ∧
    ∀ r a, onOff red = some r → onOff auto = some a →
      (s.acct.redundancy = r →
        let u := settingsEntry p 0x30 { s with acct := { s.acct with autoRestart := a } }
        exec (.setShelf p tag red auto) s = .next (respond p tag ⟨.ok, u.shelfPayload⟩ u)) ∧
      (s.acct.redundancy ≠ r →
        ∃ u, exec (.setShelf p tag red auto) s = .next (respond p tag ⟨.ok, u.shelfPayload⟩ u) ∧
          u.acct.redundancy = r ∧ u.acct.autoRestart = a ∧ u.acct.battery = s.batteryNow ∧
          u.acct.shelf = (s.ratings rectifiers).sum - (if r = true then (s.ratings rectifiers).foldl max 0 else 0))

/-- SET_LIMITS replaces every setting of its group, or is refused with RANGE and changes none (R92, R127, R142). -/
def Obligations.SetLimitsReplacesItsGroup : Prop :=
  ∀ (s : State) (p : Port) (tag : Byte) (f : LimitFields), s.leased p →
    let good := 1 ≤ f.wet.toNat ∧ f.wet.toNat ≤ 1023 ∧ f.openFloor.toNat ≤ 1022 ∧ f.openFloor.toNat < f.wet.toNat ∧
      1 ≤ f.confirm.toNat ∧ f.confirm.toNat ≤ 15 ∧ f.warnLimit.toNat < f.overLimit.toNat
    (¬good → exec (.setLimits p tag f) s = .next (respond p tag ⟨.range, []⟩ s)) ∧
    (good →
      ∃ u, exec (.setLimits p tag f) s = .next (respond p tag ⟨.ok, limitFieldBytes f⟩ u) ∧
        u = settingsEntry p 0x31 { s with leak := u.leak, sense := u.sense, hup := u.hup } ∧
        u.hup = { s.hup with cutoff := f.cutoff.toNat } ∧
        u.sense = { s.sense with warnLimit := f.warnLimit.toNat, overLimit := f.overLimit.toNat } ∧
        u.leak.reporting = s.leak.reporting ∧
        (u.leak.wet = f.wet.toNat ∧ u.leak.openFloor = f.openFloor.toNat ∧ u.leak.confirm = f.confirm.toNat) ∧
        (∀ z : ZoneId, u.zone z = { s.zone z with
          enabled := f.enabled.getLsbD z.val, openAsLeak := f.openAsLeak.getLsbD z.val }))

/-- SET_TIMING replaces every setting of its group, or is refused with RANGE and changes none. A changed census interval restarts the
census timer. A changed pace mode stops the pace timer, which in CADENCE starts again when the queue is not empty; a changed
interval restarts a running one and leaves an idle one idle. When the request gives no start opportunity (K raised, a change to
GAP, a running GAP timer given interval 0), nothing else changes (R62, R74, R109, R124, R142). -/
def Obligations.SetTimingReplacesItsGroup : Prop :=
  ∀ (s : State) (p : Port) (tag : Byte) (f : TimingFields), s.leased p →
    let window (w : Half) : Prop := 10 ≤ w.toNat ∧ w.toNat ≤ 60000
    let good := f.mode.toNat ≤ 1 ∧ f.interval.toNat ≤ 60000 ∧ ¬(f.mode = 1 ∧ f.interval = 0) ∧ 1 ≤ f.k.toNat ∧
      f.k.toNat ≤ 4 ∧ window f.w0 ∧ window f.w1 ∧ window f.w2 ∧ f.s1.toNat + f.s2.toNat + f.s3.toNat ≤ 32767 ∧
      100 ≤ f.qualification.toNat ∧ f.qualification.toNat ≤ 60000 ∧ 1 ≤ f.reply.toNat ∧ f.reply.toNat ≤ 20 ∧
      20 ≤ f.census.toNat ∧ f.census.toNat ≤ 2000
    (¬good → exec (.setTiming p tag f) s = .next (respond p tag ⟨.range, []⟩ s)) ∧
    (good →
      let mode := if f.mode = 0 then PaceMode.gap else .cadence
      let interval := f.interval.toNat
      let changed := s.seq.paceMode ≠ mode
      let census := if s.sense.interval = f.census.toNat then s.sense.timer else some f.census.toNat
      let offers := s.seq.k < f.k.toNat ∨ (changed ∧ mode = .gap) ∨
        (mode = .gap ∧ interval = 0 ∧ s.seq.paceInterval ≠ 0 ∧ s.seq.paceTimer.isSome = true)
      (∃ u, exec (.setTiming p tag f) s = .next (respond p tag ⟨.ok, timingFieldBytes f⟩ u) ∧
        (u.seq.paceMode = mode ∧ u.seq.paceInterval = interval ∧ u.seq.k = f.k.toNat) ∧
        (u.seq.w0 = f.w0.toNat ∧ u.seq.w1 = f.w1.toNat ∧ u.seq.w2 = f.w2.toNat) ∧
        (u.hup.s1 = f.s1.toNat ∧ u.hup.s2 = f.s2.toNat ∧ u.hup.s3 = f.s3.toNat) ∧
        u.hup.qualification = f.qualification.toNat ∧ u.link = { s.link with replyTimeout := f.reply.toNat } ∧
        u.sense = { s.sense with interval := f.census.toNat, timer := census } ∧
        (changed → mode = .gap → s.queue = [] → u.seq.paceTimer = none)) ∧
      (¬offers →
        exec (.setTiming p tag f) s = .next (respond p tag ⟨.ok, timingFieldBytes f⟩ (settingsEntry p 0x32 { s with
          seq := { s.seq with
            paceMode := mode, paceInterval := interval, k := f.k.toNat
            w0 := f.w0.toNat, w1 := f.w1.toNat, w2 := f.w2.toNat
            paceTimer :=
              if changed then (if s.queue = [] then none else some interval)
              else if s.seq.paceInterval = interval ∨ s.seq.paceTimer = none then s.seq.paceTimer
              else some interval }
          hup := { s.hup with
            s1 := f.s1.toNat, s2 := f.s2.toNat, s3 := f.s3.toNat, qualification := f.qualification.toNat }
          link := { s.link with replyTimeout := f.reply.toNat }
          sense := { s.sense with interval := f.census.toNat, timer := census } }))))

/-- START_RACK is refused with HOLDUP_STATE outside NORMAL, then with RECOVERING; accepted, it clears the automatic run due mark
and takes the plan's entries, each counted once as queued, parked or skipped. Over an empty plan it does nothing more. Over a plan
of one entry: an IDLE tray that is eligible is queued at its standing grant when that fits and else parked at it, and an entry
that fails its check, a tray that is not IDLE, and an ineligible tray are skipped with the reason of the first test that fails
(R20, R37, R59, R60). The codes of the reasons STATE and LOCKED are the model's reading (log entry 19, DEDUCED). -/
def Obligations.StartRackTakesThePlan : Prop :=
  (∀ (s : State) (p : Port) (tag : Byte), s.leased p →
     (s.isNormal = false → exec (.startRack p tag) s = .next (respond p tag ⟨.holdupState, []⟩ s)) ∧
     (s.isNormal = true → s.isSettled = false → exec (.startRack p tag) s = .next (respond p tag ⟨.recovering, []⟩ s)) ∧
     (s.isNormal = true → s.isSettled = true →
       (∃ u q k x, exec (.startRack p tag) s =
           .next (respond p tag ⟨.ok, [byte q, byte k, byte x] ++ nat3 u.headroom⟩ u) ∧ q + k + x = s.seq.plan.length ∧
         u.seq.autoDue = false) ∧
       (s.seq.plan = [] →
         let u := journalise .planRun none (some 0) (some .manual)
           { s with seq := { s.seq with autoDue := false, autoBegun := false } }
         exec (.startRack p tag) s = .next (respond p tag ⟨.ok, [0, 0, 0] ++ nat3 u.headroom⟩ u)))) ∧
  (∀ (s : State) (p : Port) (tag : Byte) (t : TrayId), s.leased p → s.startsWait → s.isNormal = true → s.isSettled = true →
     s.seq.plan = [{ tray := t, code := .matching, reported := false }] → (s.tray t).state = .idle →
     (s.tray t).code = .matching → (s.tray t).locked = false → s.zoneInLeak (s.cfg t) = false →
     (s.station (trayStation t)).presence = .present → (s.cfg t).standing ≠ 0 →
     let c := max (s.cfg t).inrush (s.cfg t).standing
     (c ≤ s.headroom →
       ∃ u, exec (.startRack p tag) s = .next (respond p tag ⟨.ok, [1, 0, 0] ++ nat3 u.headroom⟩ u) ∧
         (u.tray t).state = .queued ∧ (u.tray t).grant = (s.cfg t).standing ∧ (u.tray t).commitment = c ∧
         (u.tray t).revision = (s.tray t).revision + 1 ∧ u.queue = s.queue ++ [t] ∧ u.park = s.park ∧
         u.seq.autoDue = false ∧ (∀ t', t' ≠ t → u.tray t' = s.tray t')) ∧
     (s.headroom < c → s.codesPass →
       ∃ u, exec (.startRack p tag) s = .next (respond p tag ⟨.ok, [0, 1, 0] ++ nat3 u.headroom⟩ u) ∧
         (u.tray t).state = .parked ∧ (u.tray t).grant = (s.cfg t).standing ∧ (u.tray t).commitment = 0 ∧
         (u.tray t).revision = (s.tray t).revision + 1 ∧ u.queue = s.queue ∧ u.park = insertBy s.parkBefore t s.park ∧
         u.seq.autoDue = false ∧ (∀ t', t' ≠ t → u.tray t' = s.tray t'))) ∧
  (∀ (s : State) (p : Port) (tag : Byte) (e : PlanEntry), s.leased p → s.isNormal = true → s.isSettled = true →
     s.seq.plan = [e] →
     let t := e.tray
     let s' := { s with seq := { s.seq with autoDue := false, autoBegun := false } }
     let skipped (v : State) (subject : Subject) (why : Reason) : Prop :=
       let u := journalise .planRun none (some 0) (some .manual)
         (journalise .planSkip (some subject) none (some why) v)
       exec (.startRack p tag) s = .next (respond p tag ⟨.ok, [0, 0, 1] ++ nat3 u.headroom⟩ u)
     if e.code = .failing then ∃ v, s'.entriesReported v ∧ skipped v (.position 0) .badEntry
     else if (s.tray t).state ≠ .idle then skipped s' (.tray t) .state
     else (s.tray t).failsCheck = false →
       if (s.tray t).locked = true then skipped s' (.tray t) .skipLocked
       else if s.zoneInLeak (s.cfg t) = true then skipped s' (.tray t) .inLeak
       else if (s.station (trayStation t)).presence ≠ .present then skipped s' (.tray t) .station
       else (s.cfg t).standing = 0 → skipped s' (.tray t) .noGrant)

/-- CLEAR_ZONE is refused with RANGE above zone 7 and with STATE unless the zone is in LEAK with last classification DRY; accepted, the
zone is DRY with both latches clear, and its unlocked ISOLATED trays are IDLE, a locked one too when no zone is left in LEAK
(R102, R103). The model's choices in the layout of the zone record are log entries 26, 48 and 56. -/
def Obligations.ClearZoneReturnsItsTrays : Prop :=
  ∀ (s : State) (p : Port) (tag b : Byte), s.leased p →
    (7 < b.toNat → exec (.clearZone p tag b) s = .next (respond p tag ⟨.range, []⟩ s)) ∧
    ∀ z, zoneOf b = some z →
      (¬((s.zone z).state = .leak ∧ (s.zone z).lastClass = some .dry) →
        exec (.clearZone p tag b) s = .next (respond p tag ⟨.state, []⟩ s)) ∧
      ((s.zone z).state = .leak → (s.zone z).lastClass = some .dry → s.recordsLawful →
        ∃ u n, exec (.clearZone p tag b) s = .next (respond p tag ⟨.ok, u.zoneRecord z ++ [byte n]⟩ u) ∧
          u.zone z = { s.zone z with state := .dry, wetCount := 0 } ∧ (∀ z', z' ≠ z → u.zone z' = s.zone z') ∧
          u.hold.closed[z] = false ∧ u.hold.leakLatch[z] = false ∧
          (∀ z' : ZoneId, z' ≠ z →
            u.hold.closed[z'] = s.hold.closed[z'] ∧ u.hold.leakLatch[z'] = s.hold.leakLatch[z']) ∧
          ∀ t : TrayId,
            let r := s.tray t
            let back := r.state = .isolated ∧ (if r.locked = true then s.leakZones = [z] else r.cfg.zone = some z)
            (back → u.tray t = { r with state := .idle, revision := r.revision + 1 }) ∧ (¬back → u.tray t = r))

/-- CLEAR_TRAP empties the trap and clears more, locks and plan entries staying as they are (R19, R141). That the response sends the
flags as 0 and the index of an empty trap as absent is the model's reading of R162 and R165 (log entry 53, DEDUCED). -/
def Obligations.ClearTrapEmptiesTheTrap : Prop :=
  ∀ (s : State) (p : Port) (tag : Byte), s.leased p →
    exec (.clearTrap p tag) s =
      .next (respond p tag ⟨.ok, [0, 0xFF]⟩ { s with trap := { latched := none, more := false } })

/-- SAVE_CONFIG captures the image, begins the store write and leaves the port EXECUTING with an empty buffer, and while the store writes
it is refused with STORE_BUSY. When the write completes, the image passes its check from then on, and the port that sent it is
READY with the census number at the capture and the number of failing parts (R136, R158). That a completion with no write in
progress changes nothing is the model's choice (log entry 5, DESIGN CHOICE). -/
def Obligations.SaveConfigAndItsCompletion : Prop :=
  (∀ (s : State) (p : Port) (tag : Byte), s.leased p →
     (s.store.writing.isSome = true → exec (.saveConfig p tag) s = .next (respond p tag ⟨.storeBusy, []⟩ s)) ∧
     (s.store.writing = none → s.codesPass →
       exec (.saveConfig p tag) s = .next (State.setPort p
         { s.port p with state := .executing, response := none, execTag := some tag }
         { s with store := { image := none, writing := some (StoreWrite.mk p s.capture s.sense.census s.failingCount) } }))) ∧
  (∀ s : State, (s.store.writing = none → exec .storeWriteComplete s = .next s) ∧
     ∀ w, s.store.writing = some w →
       exec .storeWriteComplete s = .next (respond w.port ((s.port w.port).execTag.getD 0)
         ⟨.ok, bytes2 w.census ++ [byte w.failing]⟩ { s with store := { image := some w.image, writing := none } }))

/-! ### The Station Link (chapter 6) -/

/-- A complete frame that is a valid reply of the polled station replaces its last reply, sets replied, clears its misses and makes
it PRESENT; the next station of the round is polled with the reply timer at the reply timeout, and no other station's record
changes but the last poll of the one now polled (R106, R107, R109, R110, R111; log entry 14). When a frame is complete and its check
right is the model's reading of R164 (log entries 32 and 58). -/
def Obligations.ValidReplyReplacesTheStationRecord : Prop :=
  ∀ (s : State) (q : Poll) (bytes frame : List Byte) (rep : Reply), s.running → s.link.outstanding = some q →
    completeFrame bytes = some frame → validReply q.address frame = some rep →
    ∃ u, exec (.replyFrame bytes) s = .next u ∧
      u.station q.address = { s.station q.address with last := some rep, replied := true, misses := 0, presence := .present } ∧
      (∀ a, a ≠ q.address → { u.station a with lastPoll := (s.station a).lastPoll } = s.station a) ∧
      u.link.outstanding.map Poll.address = some (nextAddress q.address) ∧
      u.link.replyTimer = some s.link.replyTimeout ∧
      u.link.rounds = if q.address = 31 then s.link.rounds + 1 else s.link.rounds

/-- A poll that ends in a timeout or a bad reply is a miss: misses rise to at most 3, and at 3 the presence is SILENT for a station
whose output is enabled and ABSENT otherwise; the last reply stays, and the next station is polled (R109, R110, R112; log entry 14).
When a frame is complete and its check right is the model's reading of R164 (log entries 32 and 58). -/
def Obligations.MissedPollCountsAgainstTheStation : Prop :=
  ∀ (s : State) (q : Poll), s.running → s.link.outstanding = some q →
    let r := s.station q.address
    let misses := min 3 (r.misses + 1)
    let missed (cmd : Instr) : Prop := ∃ u, exec cmd s = .next u ∧
      u.station q.address = { r with
        misses := misses
        presence := if misses = 3 then (if s.outputEnabled q.address = true then .silent else .absent) else r.presence } ∧
      u.link.outstanding.map Poll.address = some (nextAddress q.address) ∧ u.link.replyTimer = some s.link.replyTimeout
    missed .replyTimeout ∧
      ∀ bytes frame, completeFrame bytes = some frame → validReply q.address frame = none → missed (.replyFrame bytes)

/-- A frame that belongs to no outstanding poll is discarded without any effect on any record, and bytes that form no complete frame
change nothing either (R109, R164; log entry 32). That an expiry of the reply timer with no poll outstanding changes nothing is
the model's choice (log entry 5, DESIGN CHOICE). -/
def Obligations.FramesWithoutAPollChangeNothing : Prop :=
  (∀ (s : State) (bytes : List Byte),
     (s.link.outstanding = none →
       exec (.replyFrame bytes) s = .next s ∧ exec .replyTimeout s = .next s) ∧
     (completeFrame bytes = none → exec (.replyFrame bytes) s = .next s)) ∧
  (∀ (s : State) (bytes : List Byte), exec (.strayFrame bytes) s = .next s)

/-- A reply with its fault bit set from a tray polled in QUEUED, INRUSH or RUN and found in that state makes it FAULTED with cause
REPORTED: enable off, no grant, commitment or marks, tries_left kept, one revision. A reply from a RUN tray that asks for another
grant, with self_request on, in NORMAL and SETTLED, takes the smaller of the demand and the cap when the rise fits or the grant
falls: the adopted mark is kept, deferred clears, over_cap tells whether the demand was above the cap (R42, R43, R44, R116). When a
frame is complete and its check right is the model's reading of R164 (log entries 32 and 58). -/
def Obligations.TrayRepliesReportFaultsAndDemands : Prop :=
  (∀ (s : State) (q : Poll) (t : TrayId) (st : TrayState) (g demand : Nat) (bytes frame : List Byte) (good leak : Bool),
     s.running → s.collectionsAgree → s.link.outstanding = some q → q.address = trayStation t → q.sent = some (st, g) →
     st = .queued ∨ st = .inrush ∨ st = .run → (s.tray t).state = st → completeFrame bytes = some frame →
     validReply q.address frame = some (.tray good true leak demand) →
     ∃ u, exec (.replyFrame bytes) s = .next u ∧ u.hold.enable[t] = false ∧
       u.tray t = { s.tray t with
         state := .faulted, grant := 0, commitment := 0, revision := (s.tray t).revision + 1, faultCause := some .reported
         adopted := false, deferred := false, overCap := false }) ∧
  (∀ (s : State) (q : Poll) (t : TrayId) (g demand : Nat) (bytes frame : List Byte) (good leak : Bool),
     s.running → s.isNormal = true → s.isSettled = true → s.link.outstanding = some q → q.address = trayStation t →
     q.sent = some (.run, g) → (s.tray t).state = .run → (s.tray t).code = .matching → (s.tray t).locked = false →
     (s.cfg t).selfRequest = true → completeFrame bytes = some frame →
     validReply q.address frame = some (.tray good false leak demand) →
     let r := s.tray t
     let want := min demand r.cfg.cap
     0 < want → want ≠ r.grant → want - r.commitment ≤ s.headroom →
     ∃ u, exec (.replyFrame bytes) s = .next u ∧
       u.tray t = { r with
         grant := want, commitment := want, revision := r.revision + 1, deferred := false
         overCap := decide (r.cfg.cap < demand) })

/-! ### The Power-Up Sequencer (chapter 3) -/

/-- A pace expiry that finds the conditions of a start takes the first tray of the queue that is not held, in GAP and in CADENCE:
INRUSH, enable on, the lowest free slot, its window armed by its window code. In GAP the start arms the pace timer again unless the
interval is 0; in CADENCE the timer has reloaded, and stops when the queue becomes empty. With no start allowed the timer only becomes
idle in GAP and only reloads in CADENCE, and an idle timer has no expiry (R63, R64, R65, R66, R67; log entry 5). -/
def Obligations.PaceExpiryStartsTheFirstTray : Prop :=
  ∀ s : State, s.running →
    (s.seq.paceTimer = none → exec .paceExpiry s = .next s) ∧
    (s.seq.paceTimer.isSome = true → s.startAllowed = false → s.seq.paceMode = .gap →
      exec .paceExpiry s = .next (s.setPace none)) ∧
    (s.seq.paceTimer.isSome = true → s.startAllowed = false → s.seq.paceMode = .cadence →
      exec .paceExpiry s = .next (s.setPace (some s.seq.paceInterval))) ∧
    ∀ ahead t rest j, s.seq.paceTimer.isSome = true → s.startAllowed = true →
      s.queue = ahead ++ t :: rest → (∀ x ∈ ahead, s.held x = true) →
      (s.tray t).state = .queued → s.held t = false → (s.tray t).code = .matching → s.freeSlot? = some j →
      (s.seq.paceMode = .gap → s.seq.paceInterval = 0 →
        s.inrushCount + 1 = s.seq.k ∨ ∀ x ∈ s.queue, x ≠ t → s.held x = true) →
      let r := s.tray t
      let len := if r.cfg.window = 0 then s.seq.w0 else if r.cfg.window = 1 then s.seq.w1 else s.seq.w2
      let left := s.queue.filter (· != t)
      let timer :=
        if (if s.seq.paceMode = .gap then s.seq.paceInterval = 0 else left = []) then none else some s.seq.paceInterval
      let v := s.claimed t { r with
        state := .inrush, commitment := max r.cfg.inrush r.grant, revision := r.revision + 1, faultCause := none
        adopted := false }
      exec .paceExpiry s = .next (journalise .start (some (.tray t)) (some len) (some (.number j.val)) { v with
        queue := left
        seq := { s.seq with
          paceTimer := timer
          slots := s.seq.slots.set j (some { tray := t, window := r.cfg.window, length := len, report := .none,
                                             remaining := len, start := s.seq.starts })
          starts := s.seq.starts + 1 } })

/-- A window that expires is judged by its latest report: GOOD makes the tray RUN with tries_left reloaded; otherwise a tray with
tries left is queued again at the tail with one fewer, and one with none is FAULTED with cause START. The slot is free either
way, and a slot with no window has no expiry (R68, R69, R70; log entry 5). -/
def Obligations.WindowExpiryJudgesTheStart : Prop :=
  ∀ (s : State) (j : SlotId), s.running →
    (s.seq.slots[j] = none → exec (.windowExpiry j) s = .next s) ∧
    ∀ w, s.seq.slots[j] = some w → (s.tray w.tray).state = .inrush → (s.tray w.tray).lawful → s.quiet →
      let t := w.tray
      let r := s.tray t
      ∃ u, exec (.windowExpiry j) s = .next u ∧ u.seq.slots[j] = none ∧ (∀ t', t' ≠ t → u.tray t' = s.tray t') ∧
        (w.report = .good → u.hold.enable[t] = true ∧ u.queue = s.queue ∧
          u.tray t = { r with
            state := .run, commitment := r.grant, revision := r.revision + 1
            triesLeft := if r.locked = true then r.triesLeft else r.cfg.tries }) ∧
        (w.report ≠ .good → 0 < r.triesLeft → u.hold.enable[t] = false ∧ u.queue = s.queue ++ [t] ∧
          u.tray t = { r with state := .queued, revision := r.revision + 1, triesLeft := r.triesLeft - 1 }) ∧
        (w.report ≠ .good → r.triesLeft = 0 → u.hold.enable[t] = false ∧ u.queue = s.queue ∧
          u.tray t = { r with
            state := .faulted, grant := 0, commitment := 0, revision := r.revision + 1, faultCause := some .start
            deferred := false, overCap := false })

/-! ### The Holdup Controller (chapter 4) -/

/-- PFAIL_N asserted in NORMAL, SETTLED with battery capacity 0: DARK at once. Every QUEUED, INRUSH, RUN and PARKED tray is IDLE with
its enable off, no grant, commitment or marks and tries_left kept, the lists are empty, every slot is free, the pace and
qualification timers are idle, usable capacity is 0, no episode begins or is counted, the last episode elapsed stays, the last
entry is DARK with reason NO_BATTERY and the number of trays made IDLE, and DARK is set on both ports (R77, R89). -/
def Obligations.AcLossWithoutBatteryEntersDark : Prop :=
  ∀ s : State, s.running → s.sup.pfailAsserted = false → s.hup.state = .normal → s.isSettled = true → s.acct.battery = 0 →
    s.hup.stage = none → s.collectionsAgree →
    let cut (t : TrayId) : Bool := !((s.tray t).state = .idle || (s.tray t).state = .isolated || (s.tray t).state = .faulted)
    ∃ u e, exec .pfailAsserted s = .next u ∧ u.hup.state = .dark ∧ u.hup.cold = false ∧ u.hup.qualified = false ∧
      u.hup.stage = none ∧ u.hup.stageTick = none ∧ u.hup.qualTimer = none ∧ u.hup.episodes = s.hup.episodes ∧
      u.hup.lastElapsed = s.hup.lastElapsed ∧ u.acct.usable = 0 ∧ u.queue = [] ∧ u.park = [] ∧
      (∀ j : SlotId, u.seq.slots[j] = none) ∧ u.seq.paceTimer = none ∧ (∀ p : Port, (u.port p).flags &&& 4 = 4) ∧
      (∀ t : TrayId,
        (cut t = false → u.tray t = s.tray t) ∧
        (cut t = true → u.hold.enable[t] = false ∧ u.tray t = { s.tray t with
          state := .idle, grant := 0, commitment := 0, revision := (s.tray t).revision + 1, faultCause := none
          adopted := false, deferred := false, overCap := false })) ∧
      u.journal.entries.getLast? = some e ∧ e.kind = .dark ∧ e.reason = some 0 ∧
      e.value = some (allTrays.filter cut).length

/-- PFAIL_N asserted in NORMAL otherwise: HOLDUP and a new episode. Every QUEUED and INRUSH tray is PARKED with its grant and
tries_left, the episode's total and timer are S1+S2+S3, the tick is armed, the count rises, usable capacity is battery capacity,
the pace timer is idle and HOLDUP is set on both ports (R76). -/
def Obligations.AcLossEntersHoldup : Prop :=
  ∀ s : State, s.running → s.sup.pfailAsserted = false → s.hup.state = .normal →
    s.isSettled = false ∨ s.acct.battery ≠ 0 → s.codesPass → s.collectionsAgree →
    ∃ u, exec .pfailAsserted s = .next u ∧ u.hup.state = .holdup ∧ u.hup.cold = false ∧ u.hup.qualified = false ∧
      u.hup.total = s.hup.s1 + s.hup.s2 + s.hup.s3 ∧ u.hup.timer = (s.hup.s1 + s.hup.s2 + s.hup.s3 : Nat) ∧
      u.hup.bound1 = s.hup.s2 + s.hup.s3 ∧ u.hup.bound2 = s.hup.s3 ∧ u.hup.stageTick = some 100 ∧
      u.hup.episodes = s.hup.episodes + 1 ∧ (0 < s.hup.s1 → u.hup.stage = some .one) ∧
      u.acct.usable = s.acct.battery ∧ u.seq.paceTimer = none ∧ u.seq.autoDue = false ∧
      (∀ p : Port, (u.port p).flags &&& 1 = 1) ∧
      ∀ t : TrayId, (s.tray t).state = .queued ∨ (s.tray t).state = .inrush →
        (u.tray t).state = .parked ∧ (u.tray t).grant = (s.tray t).grant ∧ (u.tray t).commitment = 0 ∧
        (u.tray t).triesLeft = (s.tray t).triesLeft ∧ (u.tray t).revision = (s.tray t).revision + 1 ∧
        u.hold.enable[t] = false

/-- PFAIL_N asserted outside NORMAL: from warm REGAIN back to HOLDUP in the same episode; from cold REGAIN to DARK with no DARK alert and
no tray changed; in HOLDUP and DARK only the level changes. PFAIL_N deasserted in DARK: cold REGAIN with the qualification timer
armed and usable capacity 0; in NORMAL and REGAIN only the level changes (R82, R86). The model's choices: an edge to the level the pin
already has is no event (log entry 11), the value of the RESUMED entry is the timer's two's complement (log entry 36, DEDUCED), and the
codes of its reason and of COLD (log entry 62, DEDUCED). -/
def Obligations.OtherPfailEdges : Prop :=
  (∀ s : State, s.running → s.sup.pfailAsserted = false →
     let v := { s with sup := { s.sup with pfailAsserted := true } }
     (s.hup.state = .regain → s.hup.cold = false →
       exec .pfailAsserted s = .next (raise .holdup (journalise .holdup none (some (timerValue s.hup.timer)) (some .resumed) { v with
         hup := { s.hup with state := .holdup, qualTimer := none, qualified := false }
         acct := { s.acct with usable := s.acct.battery } }))) ∧
     (s.hup.state = .regain → s.hup.cold = true →
       (∀ t : TrayId, (s.tray t).state = .idle ∨ (s.tray t).state = .isolated ∨ (s.tray t).state = .faulted) →
       ∃ u e, exec .pfailAsserted s = .next u ∧ u.hup.state = .dark ∧ u.hup.cold = false ∧ u.hup.qualTimer = none ∧
         u.trays = s.trays ∧ (∀ p : Port, (u.port p).flags = (s.port p).flags) ∧
         u.journal.entries.getLast? = some e ∧ e.kind = .dark ∧ e.reason = some 3) ∧
     (s.hup.state = .holdup ∨ s.hup.state = .dark → exec .pfailAsserted s = .next v)) ∧
  (∀ s : State, s.running →
     (s.sup.pfailAsserted = true → s.hup.state = .dark →
       exec .pfailDeasserted s = .next (journalise .regain none none (some .cold) { s with
         sup := { s.sup with pfailAsserted := false }
         hup := { s.hup with state := .regain, cold := true, qualTimer := some s.hup.qualification }
         acct := { s.acct with usable := 0 } })) ∧
     (s.sup.pfailAsserted = true → s.hup.state = .normal ∨ s.hup.state = .regain →
       exec .pfailDeasserted s = .next { s with sup := { s.sup with pfailAsserted := false } }) ∧
     (s.sup.pfailAsserted = false → exec .pfailDeasserted s = .next s) ∧
     (s.sup.pfailAsserted = true → exec .pfailAsserted s = .next s))

/-- PFAIL_N deasserted in HOLDUP: warm REGAIN with the qualification timer armed and qualified clear, the episode going on, no
quantity of the account changed, a REGAIN entry with reason WARM and the stage timer as value, and no alert cause set (R81). The model's
choices: that value is the timer's two's complement (log entry 36, DEDUCED), and the code of the reason (log entry 62, DEDUCED). -/
def Obligations.AcReturnInHoldupEntersWarmRegain : Prop :=
  ∀ s : State, s.running → s.sup.pfailAsserted = true → s.hup.state = .holdup → s.acct.usable = s.acct.battery →
    exec .pfailDeasserted s = .next (journalise .regain none (some (timerValue s.hup.timer)) (some .warm) { s with
      sup := { s.sup with pfailAsserted := false }
      hup := { s.hup with
        state := .regain, cold := false, qualified := false, qualTimer := some s.hup.qualification } })

/-- Qualification expires: cold REGAIN enters NORMAL and sets the automatic run due mark; warm REGAIN enters NORMAL and latches the
elapsed ticks when shelf capacity is at least committed, and otherwise sets qualified with a QUALIFIED entry; an idle timer has
no expiry (R83, R85, R86; log entry 5). -/
def Obligations.QualificationExpiryEndsTheRegain : Prop :=
  ∀ s : State, s.running →
    (s.hup.qualTimer = none → exec .qualificationExpiry s = .next s) ∧
    (s.hup.qualTimer.isSome = true → s.hup.cold = true →
      ∃ u, exec .qualificationExpiry s = .next u ∧ u.hup.state = .normal ∧ u.hup.cold = false ∧ u.hup.qualTimer = none ∧
        u.hup.lastElapsed = s.hup.lastElapsed ∧ u.seq.autoDue = true ∧ u.acct.usable = s.acct.shelf ∧
        ∀ p : Port, (u.port p).flags &&& 2 = 2) ∧
    (s.hup.qualTimer.isSome = true → s.hup.cold = false → s.acct.committed ≤ s.acct.shelf →
      ∃ u, exec .qualificationExpiry s = .next u ∧ u.hup.state = .normal ∧ u.hup.qualTimer = none ∧
        u.hup.qualified = false ∧ u.hup.stage = none ∧ u.hup.stageTick = none ∧ u.hup.timer = s.hup.timer ∧
        u.hup.lastElapsed = ((s.hup.total : Int) - s.hup.timer).toNat ∧ u.acct.usable = s.acct.shelf ∧
        ∀ p : Port, (u.port p).flags &&& 2 = 2) ∧
    (s.hup.qualTimer.isSome = true → s.hup.cold = false → s.acct.shelf < s.acct.committed →
      exec .qualificationExpiry s = .next (journalise .qualified none (some s.acct.shelf) (some .short)
        { s with hup := { s.hup with qualTimer := none, qualified := true } }))

/-- A stage tick counts the stage timer down by one, no further than −32 768, and is armed again; when no boundary is reached nothing
else changes, and an idle tick has no expiry (R78, R80; log entry 5). -/
def Obligations.StageTickCountsDown : Prop :=
  ∀ s : State, s.running →
    let timer := max (s.hup.timer - 1) (-32768)
    (s.hup.stageTick = none → exec .stageTick s = .next s) ∧
    (s.hup.stageTick.isSome = true → (s.hup.stage = some .one → (s.hup.bound1 : Int) < timer) →
      (s.hup.stage = some .two → (s.hup.bound2 : Int) < timer) → (s.hup.stage = some .three → 0 < timer) →
      exec .stageTick s = .next { s with hup := { s.hup with timer := timer, stageTick := some 100 } })

/-- The tick that reaches the boundary of stage 1 alone sheds every RUN tray of class 0, a locked tray among them, to PARKED with its
grant, changes no other tray, and stage 2 follows (R78, R79). -/
def Obligations.StageOneShedsClassZero : Prop :=
  ∀ s : State, s.running → s.codesPass → s.recordsLawful → s.onBattery = true → s.hup.qualified = false →
    s.hup.stageTick.isSome = true → s.hup.stage = some .one → s.hup.timer - 1 ≤ s.hup.bound1 →
    (s.hup.bound2 : Int) < s.hup.timer - 1 →
    ∃ u, exec .stageTick s = .next u ∧ u.hup.stage = some .two ∧ u.hup.timer = s.hup.timer - 1 ∧
      ∀ t : TrayId,
        let r := s.tray t
        let shed := r.state = .run ∧ (r.locked = true ∨ r.cfg.cls = 0)
        (shed → u.hold.enable[t] = false ∧ u.tray t = { r with
          state := .parked, commitment := 0, revision := r.revision + 1, adopted := false, deferred := false
          overCap := false }) ∧
        (¬shed → u.tray t = r)

/-! ### Sensing, the census and leaks (chapters 5 and 7) -/

/-- A conversion's valid result enters the channel's minimum, maximum and sample count of the filling bank and its last value with
the census number; an overrange result is counted apart; the counts stop at their largest value and nothing else changes
(R121, R122). -/
def Obligations.ConversionEntersTheFillingBank : Prop :=
  ∀ (s : State) (ch : ChannelId), s.sup.held = false →
    let c := s.sense.filling[ch]
    exec (.conversion ch none) s = .next { s with sense := { s.sense with
      filling := s.sense.filling.set ch { c with overranges := countUp c.overranges } } } ∧
    ∀ w : Half, w.toNat ≤ channelMax ch →
      let v := w.toNat
      let low := if c.samples = 0 then v else min v (c.minimum.getD v)
      let high := if c.samples = 0 then v else max v (c.maximum.getD v)
      exec (.conversion ch (some w)) s = .next { s with sense := { s.sense with
        filling := s.sense.filling.set ch
          { c with minimum := some low, maximum := some high, samples := countUp c.samples }
        last := s.sense.last.set ch (some (v, s.sense.census)) } }

/-- A census close publishes the filling bank under the next number with the values captured before any reaction to it, empties and
changes the filling bank, clears every replied flag, reloads the timer and releases every flag set on either port; with no
timer running there is no close (log entry 5). The bus limit check of the close sets low exactly when the published BUS minimum is
below warn and high exactly when the maximum is above over, keeps both where BUS had no samples, sets BUS_LIMIT on both ports while
one is outside its limit, and makes an entry at each crossing (R124, R125, R126, R127, R146). That these are the last entries of a
close that finds NORMAL and both lists empty is the model's choice of the order of R126's consumers (log entry 25, DEDUCED). -/
def Obligations.CensusClosePublishesTheBank : Prop :=
  ∀ s : State, s.running →
    (s.sense.timer = none → exec .censusClose s = .next s) ∧
    (s.sense.timer.isSome = true → ∃ u, exec .censusClose s = .next u ∧
      u.sense.census = s.sense.census + 1 ∧ u.sense.published.census = s.sense.census + 1 ∧
      u.sense.published.channels = s.sense.filling ∧
      u.sense.published.captured = some { state := s.hup.state, cold := s.hup.cold, stage := s.hup.stage
                                          timer := s.hup.timer, shelf := s.acct.shelf, battery := s.acct.battery
                                          usable := s.acct.usable, committed := s.acct.committed, mode := s.acct.mode } ∧
      (∀ ch : ChannelId, u.sense.filling[ch] = Channel.empty) ∧ u.sense.fillingBank = s.sense.fillingBank + 1 ∧
      u.sense.timer = some s.sense.interval ∧ (∀ a : StationId, (u.station a).replied = false) ∧
      (∀ p : Port, (u.port p).flags &&& ~~~(u.port p).released = 0) ∧
      let bus := s.sense.filling[(0 : ChannelId)]
      let low := bus.minimum.elim s.sense.low fun v => decide (v < s.sense.warnLimit)
      let high := bus.maximum.elim s.sense.high fun v => decide (s.sense.overLimit < v)
      let crossed (v : Option Nat) (was now : Bool) (entered ended : Reason) :=
        if was = now then [] else [(Kind.busLimit, v.map fun n => min n 65535, some (if now then entered else ended).code)]
      u.sense.low = low ∧ u.sense.high = high ∧
      (∀ p : Port, (bus.minimum.isSome = true ∧ low = true) ∨ (bus.maximum.isSome = true ∧ high = true) →
        (u.port p).flags &&& 0x4000 = 0x4000) ∧
      (s.isNormal = true → s.queue = [] → s.park = [] →
        (crossed bus.minimum s.sense.low low .low .lowCleared ++ crossed bus.maximum s.sense.high high .high .highCleared) <:+
          u.journal.entries.map fun e => (e.kind, e.value, e.reason)))

/-- A census whose rope stays wet to the confirm count takes its zone to LEAK: the valve latch and the leak latch are set, LEAK is set
on both ports, and every tray of the zone but a FAULTED one is ISOLATED with no grant or commitment and its enable off
(R94, R96, R99, R101). -/
def Obligations.ConfirmedLeakIsolatesItsTrays : Prop :=
  ∀ (s : State) (z : ZoneId) (m : Nat), s.running → s.codesPass → s.sense.timer.isSome = true →
    (s.zone z).state = .suspect → (s.zone z).enabled = true → s.leak.confirm ≤ (s.zone z).wetCount + 1 →
    (s.sense.filling[zoneChannel z]).maximum = some m → s.leak.wet ≤ m →
    ∃ u, exec .censusClose s = .next u ∧ (u.zone z).state = .leak ∧ (u.zone z).lastClass = some .wet ∧
      u.hold.closed[z] = true ∧ u.hold.leakLatch[z] = true ∧ (∀ p : Port, (u.port p).flags &&& 0x40 = 0x40) ∧
      ∀ t : TrayId, (s.tray t).inZone z = true → (s.tray t).state ≠ .faulted → (s.tray t).state ≠ .isolated →
        (u.tray t).state = .isolated ∧ (u.tray t).grant = 0 ∧ (u.tray t).commitment = 0 ∧ u.hold.enable[t] = false

/-! ### Supplies and resets (chapter 10) -/

/-- The edges that stop or hold the core. A rise or a fall of VSTBY leaves the hold domain afresh with cause POWER_ON; a fall of VCORE
and an assertion of RESET_N add their causes and keep every latch; each stop ends every core record and a store write in
progress; a recovery of VCORE arms the start delay of 64 ms (R152, R153, R154, R155, R156). The model's choices are log entries 7, 8, 9
and 10, and log entry 49 for the counts and the store result in a hold domain afresh (DESIGN CHOICE). -/
def Obligations.SupplyEdgesStopTheCore : Prop :=
  ∀ s : State,
    let stopped (h : Hold) (u : Supply) : State :=
      State.fresh s.pending { s.store with writing := none } h { u with held := true } s.draws
    (s.sup.vstby = false → exec .vstbyRise s = .next (stopped Hold.fresh { s.sup with
      vstby := true, startDelay := if s.sup.vcore = true then some 64 else none })) ∧
    (s.sup.vstby = true → exec .vstbyFall s =
      .next (stopped Hold.fresh { s.sup with vstby := false, startDelay := none })) ∧
    (s.sup.vcore = true → s.sup.held = false → exec .vcoreFall s =
      .next (stopped { s.hold with cause := .warm true false } { s.sup with vcore := false, startDelay := none })) ∧
    (s.sup.vcore = true → s.sup.held = true → exec .vcoreFall s = .next { s with
      hold := { s.hold with cause := match s.hold.cause with | .powerOn => .powerOn | .warm _ pin => .warm true pin }
      sup := { s.sup with vcore := false, startDelay := none } }) ∧
    (s.sup.vcore = false → s.sup.vstby = true → exec .vcoreRecovery s =
      .next { s with sup := { s.sup with vcore := true, startDelay := some 64 } }) ∧
    (s.sup.resetAsserted = false → s.sup.held = false → exec .resetNAsserted s =
      .next (stopped { s.hold with cause := .warm false true } { s.sup with resetAsserted := true })) ∧
    (s.sup.resetAsserted = false → s.sup.held = true → exec .resetNAsserted s = .next { s with
      hold := { s.hold with cause := match s.hold.cause with | .powerOn => .powerOn | .warm dip _ => .warm dip true }
      sup := { s.sup with resetAsserted := true } })

/-- A reset ends at the first moment at which RESET_N is deasserted, both supplies are up and no start delay runs: at the delay's expiry
or at the deassertion, and not before (R154, R155). That an expiry with no start delay running changes nothing is the model's choice
(log entry 5, DESIGN CHOICE). -/
def Obligations.ResetEndsAtItsFirstMoment : Prop :=
  ∀ s : State, s.sup.held = true → s.sup.vstby = true →
    (s.sup.startDelay.isSome = true → s.sup.resetAsserted = true →
      exec .startDelayExpiry s = .next { s with sup := { s.sup with startDelay := none } }) ∧
    (s.sup.startDelay.isSome = true → s.sup.resetAsserted = false → s.sup.vcore = true →
      ∃ u, exec .startDelayExpiry s = .next u ∧ u.sup = { s.sup with startDelay := none, held := false }) ∧
    (s.sup.startDelay = none → exec .startDelayExpiry s = .next s) ∧
    (s.sup.resetAsserted = true → s.sup.startDelay.isSome = true ∨ s.sup.vcore = false →
      exec .resetNDeasserted s = .next { s with sup := { s.sup with resetAsserted := false } }) ∧
    (s.sup.resetAsserted = true → s.sup.startDelay = none → s.sup.vcore = true →
      ∃ u, exec .resetNDeasserted s = .next u ∧ u.sup = { s.sup with resetAsserted := false, held := false })

/-- The end of a POWER_ON, at the expiry of the start delay or at the deassertion of RESET_N: the image or the defaults are
loaded, every tray is IDLE, every zone DRY, every station ABSENT, the account SETTLED and empty, the holdup state cold REGAIN or
DARK by PFAIL_N, both ports IDLE, and the first round and the census timer begin (R1, R2, R73, R107, R124, R153, R155, R157; log
entry 7). -/
def Obligations.PowerOnBeginsADarkRack : Prop :=
  ∀ (s : State) (c : Instr), s.resetEndsAt c → s.hold.cause = .powerOn →
    let img := s.store.image.getD Image.default
    ∃ u, exec c s = .next u ∧ u.sup.held = false ∧
      (∀ t : TrayId, u.tray t = Tray.fresh (img.trays[t]).1 (img.trays[t]).2) ∧
      u.queue = [] ∧ u.park = [] ∧ (∀ j : SlotId, u.seq.slots[j] = none) ∧ u.journal.entries = [] ∧ u.trap.latched = none ∧
      u.seq.plan.map (fun e => (e.tray, e.code)) = img.plan ∧
      (∀ z : ZoneId, (u.zone z).state = .dry ∧ (u.zone z).wetCount = 0 ∧ (u.zone z).lastClass = none) ∧
      (∀ a : StationId, (u.station a).presence = .absent) ∧
      u.acct = { shelf := 0, battery := 0, usable := 0, committed := 0, mode := .settled, redundancy := img.redundancy
                 autoRestart := img.autoRestart } ∧
      (s.sup.pfailAsserted = false →
        u.hup.state = .regain ∧ u.hup.cold = true ∧ u.hup.qualTimer = some img.qualification) ∧
      (s.sup.pfailAsserted = true → u.hup.state = .dark ∧ u.hup.cold = false ∧ u.hup.qualTimer = none) ∧
      (∀ p : Port, (u.port p).state = .idle ∧ (u.port p).lease = none ∧ (u.port p).flags = 0) ∧
      u.link.outstanding.map Poll.address = some 32 ∧ u.sense.timer = some img.interval ∧
      u.hold.enable = s.hold.enable ∧ u.hold.closed = s.hold.closed ∧ u.hold.leakLatch = s.hold.leakLatch ∧
      u.hold.adopted = 0 ∧ u.hold.restored = 0 ∧
      u.hold.result = if s.store.image = none then .defaults else .loaded

/-- The end of a warm restart with every code of the image good, at the expiry of the start delay or at the deassertion of
RESET_N: a tray whose enable latch is on is adopted in RUN at its standing grant, a tray of a zone whose leak latch is set is
ISOLATED with its enable off, every other tray is IDLE; the zones in LEAK are those latched; the account is RECOVERING; the holdup
state is NORMAL, HOLDUP or DARK by PFAIL_N and the adopted trays; the journal is empty (R2, R155, R160, R161). That the revision
of an isolated tray is 1 and every other 0 is the model's reading of R6, R99 and R160 (log entry 37, DEDUCED). -/
def Obligations.WarmRestartAdoptsTheRack : Prop :=
  ∀ (s : State) (e : Instr) (dip pin : Bool), s.resetEndsAt e → s.hold.cause = .warm dip pin →
    let img := s.store.image.getD Image.default
    (∀ t : TrayId, (img.trays[t]).2 = .matching) →
    ∃ u, exec e s = .next u ∧ u.sup.held = false ∧ u.acct.mode = .recovering ∧ u.journal.entries = [] ∧
      u.queue = [] ∧ u.park = [] ∧ (∀ j : SlotId, u.seq.slots[j] = none) ∧
      (∀ t : TrayId,
        let c := (img.trays[t]).1
        let leaking := ∃ z : ZoneId, c.zone = some z ∧ s.hold.leakLatch[z] = true
        (leaking → u.tray t = { Tray.fresh c .matching with state := .isolated, revision := 1 } ∧
          u.hold.enable[t] = false) ∧
        (¬leaking → s.hold.enable[t] = true → u.hold.enable[t] = true ∧
          u.tray t = { Tray.fresh c .matching with
            state := .run, grant := c.standing, commitment := c.standing, adopted := true }) ∧
        (¬leaking → s.hold.enable[t] = false → u.tray t = Tray.fresh c .matching ∧ u.hold.enable[t] = false)) ∧
      (∀ z : ZoneId, (u.zone z).state = (if s.hold.leakLatch[z] = true then .leak else .dry) ∧
        (u.zone z).wetCount = 0 ∧ (u.zone z).lastClass = none) ∧
      u.hold.closed = s.hold.closed ∧ u.hold.leakLatch = s.hold.leakLatch ∧
      (s.sup.pfailAsserted = false → u.hup.state = .normal) ∧
      (s.sup.pfailAsserted = true → (∃ t, (u.tray t).state = .run) → u.hup.state = .holdup ∧ u.hup.stage = some .one ∧
        u.hup.total = img.s1 + img.s2 + img.s3 ∧ u.hup.episodes = 1) ∧
      (s.sup.pfailAsserted = true → (∀ t, (u.tray t).state ≠ .run) → u.hup.state = .dark) ∧
      u.acct.usable = 0 ∧ u.link.outstanding.map Poll.address = some 32 ∧ u.sense.timer = some img.interval

/-! ### Invariants -/

/-- Every step keeps the latches, the journal and the cursors sound: enables on exactly in INRUSH and RUN while the core runs, valve
and leak latches set exactly in LEAK, at most 48 entries, no cursor outside the ring (R3, R101, R150, R152). -/
def Obligations.EveryStepKeepsTheLatchesSound : Prop :=
  ∀ s t : State, s.latchesSound → step s = .next t → t.latchesSound

/-- Every step keeps every tray record lawful, and every step keeps committed the sum of the commitments (R2, R4, R5, R30). -/
def Obligations.EveryStepKeepsTheRecordsAndTheirSum : Prop :=
  (∀ s t : State, s.recordsLawful → step s = .next t → t.recordsLawful) ∧
  (∀ s t : State, s.committedSums → step s = .next t → t.committedSums)

/-- Every step keeps each collection the set of the trays in its state, with no tray twice (R12). -/
def Obligations.EveryStepKeepsTheCollections : Prop :=
  ∀ s t : State, s.collectionsAgree → step s = .next t → t.collectionsAgree

/-- Every step keeps the whole rack sound: with the records, the sums and the collections, the Holdup Controller's record, and
outside RECOVERING committed no greater than usable capacity (R12, R29, R30, R73, R76, R89). -/
def Obligations.EveryStepKeepsTheBudget : Prop :=
  ∀ s t : State, s.rackSound → step s = .next t → t.rackSound

/-- The machine right after reset has every invariant (R2, R3, R12, R30, R101; log entries 2, 3). -/
def Obligations.ResetIsSound : Prop := State.reset.latchesSound ∧ State.reset.rackSound
end

