-- ==== Sys2Proof/Laws/State.lean ====
section
/-! SUPPORT. One lemma for each field and each update of the state: what the update leaves as it was. -/

namespace Sys2Proof.Machine

/-! ### setRecord -/

@[simp] theorem setRecord_pending (t : TrayId) (r : Tray) (s : State) : (s.setRecord t r).pending = s.pending := rfl
@[simp] theorem setRecord_queue (t : TrayId) (r : Tray) (s : State) : (s.setRecord t r).queue = s.queue := rfl
@[simp] theorem setRecord_park (t : TrayId) (r : Tray) (s : State) : (s.setRecord t r).park = s.park := rfl
@[simp] theorem setRecord_trap (t : TrayId) (r : Tray) (s : State) : (s.setRecord t r).trap = s.trap := rfl
@[simp] theorem setRecord_acct (t : TrayId) (r : Tray) (s : State) : (s.setRecord t r).acct = s.acct := rfl
@[simp] theorem setRecord_seq (t : TrayId) (r : Tray) (s : State) : (s.setRecord t r).seq = s.seq := rfl
@[simp] theorem setRecord_hup (t : TrayId) (r : Tray) (s : State) : (s.setRecord t r).hup = s.hup := rfl
@[simp] theorem setRecord_leak (t : TrayId) (r : Tray) (s : State) : (s.setRecord t r).leak = s.leak := rfl
@[simp] theorem setRecord_link (t : TrayId) (r : Tray) (s : State) : (s.setRecord t r).link = s.link := rfl
@[simp] theorem setRecord_sense (t : TrayId) (r : Tray) (s : State) : (s.setRecord t r).sense = s.sense := rfl
@[simp] theorem setRecord_portA (t : TrayId) (r : Tray) (s : State) : (s.setRecord t r).portA = s.portA := rfl
@[simp] theorem setRecord_portB (t : TrayId) (r : Tray) (s : State) : (s.setRecord t r).portB = s.portB := rfl
@[simp] theorem setRecord_journal (t : TrayId) (r : Tray) (s : State) : (s.setRecord t r).journal = s.journal := rfl
@[simp] theorem setRecord_store (t : TrayId) (r : Tray) (s : State) : (s.setRecord t r).store = s.store := rfl
@[simp] theorem setRecord_hold (t : TrayId) (r : Tray) (s : State) : (s.setRecord t r).hold = s.hold := rfl
@[simp] theorem setRecord_sup (t : TrayId) (r : Tray) (s : State) : (s.setRecord t r).sup = s.sup := rfl
@[simp] theorem setRecord_agenda (t : TrayId) (r : Tray) (s : State) : (s.setRecord t r).agenda = s.agenda := rfl
@[simp] theorem setRecord_draws (t : TrayId) (r : Tray) (s : State) : (s.setRecord t r).draws = s.draws := rfl

/-! ### putTray -/

@[simp] theorem putTray_pending (t : TrayId) (r : Tray) (s : State) : (s.putTray t r).pending = s.pending := rfl
@[simp] theorem putTray_queue (t : TrayId) (r : Tray) (s : State) : (s.putTray t r).queue = s.queue := rfl
@[simp] theorem putTray_park (t : TrayId) (r : Tray) (s : State) : (s.putTray t r).park = s.park := rfl
@[simp] theorem putTray_trap (t : TrayId) (r : Tray) (s : State) : (s.putTray t r).trap = s.trap := rfl
@[simp] theorem putTray_seq (t : TrayId) (r : Tray) (s : State) : (s.putTray t r).seq = s.seq := rfl
@[simp] theorem putTray_hup (t : TrayId) (r : Tray) (s : State) : (s.putTray t r).hup = s.hup := rfl
@[simp] theorem putTray_leak (t : TrayId) (r : Tray) (s : State) : (s.putTray t r).leak = s.leak := rfl
@[simp] theorem putTray_link (t : TrayId) (r : Tray) (s : State) : (s.putTray t r).link = s.link := rfl
@[simp] theorem putTray_sense (t : TrayId) (r : Tray) (s : State) : (s.putTray t r).sense = s.sense := rfl
@[simp] theorem putTray_portA (t : TrayId) (r : Tray) (s : State) : (s.putTray t r).portA = s.portA := rfl
@[simp] theorem putTray_portB (t : TrayId) (r : Tray) (s : State) : (s.putTray t r).portB = s.portB := rfl
@[simp] theorem putTray_journal (t : TrayId) (r : Tray) (s : State) : (s.putTray t r).journal = s.journal := rfl
@[simp] theorem putTray_store (t : TrayId) (r : Tray) (s : State) : (s.putTray t r).store = s.store := rfl
@[simp] theorem putTray_sup (t : TrayId) (r : Tray) (s : State) : (s.putTray t r).sup = s.sup := rfl
@[simp] theorem putTray_draws (t : TrayId) (r : Tray) (s : State) : (s.putTray t r).draws = s.draws := rfl

/-! ### opportunity -/

@[simp] theorem opportunity_pending (s : State) : (opportunity s).pending = s.pending := rfl
@[simp] theorem opportunity_trays (s : State) : (opportunity s).trays = s.trays := rfl
@[simp] theorem opportunity_queue (s : State) : (opportunity s).queue = s.queue := rfl
@[simp] theorem opportunity_park (s : State) : (opportunity s).park = s.park := rfl
@[simp] theorem opportunity_trap (s : State) : (opportunity s).trap = s.trap := rfl
@[simp] theorem opportunity_acct (s : State) : (opportunity s).acct = s.acct := rfl
@[simp] theorem opportunity_seq (s : State) : (opportunity s).seq = s.seq := rfl
@[simp] theorem opportunity_hup (s : State) : (opportunity s).hup = s.hup := rfl
@[simp] theorem opportunity_leak (s : State) : (opportunity s).leak = s.leak := rfl
@[simp] theorem opportunity_link (s : State) : (opportunity s).link = s.link := rfl
@[simp] theorem opportunity_sense (s : State) : (opportunity s).sense = s.sense := rfl
@[simp] theorem opportunity_portA (s : State) : (opportunity s).portA = s.portA := rfl
@[simp] theorem opportunity_portB (s : State) : (opportunity s).portB = s.portB := rfl
@[simp] theorem opportunity_journal (s : State) : (opportunity s).journal = s.journal := rfl
@[simp] theorem opportunity_store (s : State) : (opportunity s).store = s.store := rfl
@[simp] theorem opportunity_hold (s : State) : (opportunity s).hold = s.hold := rfl
@[simp] theorem opportunity_sup (s : State) : (opportunity s).sup = s.sup := rfl
@[simp] theorem opportunity_draws (s : State) : (opportunity s).draws = s.draws := rfl

/-! ### admissionDue -/

@[simp] theorem admissionDue_pending (s : State) : (admissionDue s).pending = s.pending := rfl
@[simp] theorem admissionDue_trays (s : State) : (admissionDue s).trays = s.trays := rfl
@[simp] theorem admissionDue_queue (s : State) : (admissionDue s).queue = s.queue := rfl
@[simp] theorem admissionDue_park (s : State) : (admissionDue s).park = s.park := rfl
@[simp] theorem admissionDue_trap (s : State) : (admissionDue s).trap = s.trap := rfl
@[simp] theorem admissionDue_acct (s : State) : (admissionDue s).acct = s.acct := rfl
@[simp] theorem admissionDue_seq (s : State) : (admissionDue s).seq = s.seq := rfl
@[simp] theorem admissionDue_hup (s : State) : (admissionDue s).hup = s.hup := rfl
@[simp] theorem admissionDue_leak (s : State) : (admissionDue s).leak = s.leak := rfl
@[simp] theorem admissionDue_link (s : State) : (admissionDue s).link = s.link := rfl
@[simp] theorem admissionDue_sense (s : State) : (admissionDue s).sense = s.sense := rfl
@[simp] theorem admissionDue_portA (s : State) : (admissionDue s).portA = s.portA := rfl
@[simp] theorem admissionDue_portB (s : State) : (admissionDue s).portB = s.portB := rfl
@[simp] theorem admissionDue_journal (s : State) : (admissionDue s).journal = s.journal := rfl
@[simp] theorem admissionDue_store (s : State) : (admissionDue s).store = s.store := rfl
@[simp] theorem admissionDue_hold (s : State) : (admissionDue s).hold = s.hold := rfl
@[simp] theorem admissionDue_sup (s : State) : (admissionDue s).sup = s.sup := rfl
@[simp] theorem admissionDue_draws (s : State) : (admissionDue s).draws = s.draws := rfl

/-! ### setPace -/

@[simp] theorem setPace_pending (v : Option Nat) (s : State) : (s.setPace v).pending = s.pending := rfl
@[simp] theorem setPace_trays (v : Option Nat) (s : State) : (s.setPace v).trays = s.trays := rfl
@[simp] theorem setPace_queue (v : Option Nat) (s : State) : (s.setPace v).queue = s.queue := rfl
@[simp] theorem setPace_park (v : Option Nat) (s : State) : (s.setPace v).park = s.park := rfl
@[simp] theorem setPace_trap (v : Option Nat) (s : State) : (s.setPace v).trap = s.trap := rfl
@[simp] theorem setPace_acct (v : Option Nat) (s : State) : (s.setPace v).acct = s.acct := rfl
@[simp] theorem setPace_hup (v : Option Nat) (s : State) : (s.setPace v).hup = s.hup := rfl
@[simp] theorem setPace_leak (v : Option Nat) (s : State) : (s.setPace v).leak = s.leak := rfl
@[simp] theorem setPace_link (v : Option Nat) (s : State) : (s.setPace v).link = s.link := rfl
@[simp] theorem setPace_sense (v : Option Nat) (s : State) : (s.setPace v).sense = s.sense := rfl
@[simp] theorem setPace_portA (v : Option Nat) (s : State) : (s.setPace v).portA = s.portA := rfl
@[simp] theorem setPace_portB (v : Option Nat) (s : State) : (s.setPace v).portB = s.portB := rfl
@[simp] theorem setPace_journal (v : Option Nat) (s : State) : (s.setPace v).journal = s.journal := rfl
@[simp] theorem setPace_store (v : Option Nat) (s : State) : (s.setPace v).store = s.store := rfl
@[simp] theorem setPace_hold (v : Option Nat) (s : State) : (s.setPace v).hold = s.hold := rfl
@[simp] theorem setPace_sup (v : Option Nat) (s : State) : (s.setPace v).sup = s.sup := rfl
@[simp] theorem setPace_agenda (v : Option Nat) (s : State) : (s.setPace v).agenda = s.agenda := rfl
@[simp] theorem setPace_draws (v : Option Nat) (s : State) : (s.setPace v).draws = s.draws := rfl

/-! ### setPort -/

@[simp] theorem setPort_pending (p : Port) (r : PortRec) (s : State) : (s.setPort p r).pending = s.pending := by cases p <;> rfl
@[simp] theorem setPort_trays (p : Port) (r : PortRec) (s : State) : (s.setPort p r).trays = s.trays := by cases p <;> rfl
@[simp] theorem setPort_queue (p : Port) (r : PortRec) (s : State) : (s.setPort p r).queue = s.queue := by cases p <;> rfl
@[simp] theorem setPort_park (p : Port) (r : PortRec) (s : State) : (s.setPort p r).park = s.park := by cases p <;> rfl
@[simp] theorem setPort_trap (p : Port) (r : PortRec) (s : State) : (s.setPort p r).trap = s.trap := by cases p <;> rfl
@[simp] theorem setPort_acct (p : Port) (r : PortRec) (s : State) : (s.setPort p r).acct = s.acct := by cases p <;> rfl
@[simp] theorem setPort_seq (p : Port) (r : PortRec) (s : State) : (s.setPort p r).seq = s.seq := by cases p <;> rfl
@[simp] theorem setPort_hup (p : Port) (r : PortRec) (s : State) : (s.setPort p r).hup = s.hup := by cases p <;> rfl
@[simp] theorem setPort_leak (p : Port) (r : PortRec) (s : State) : (s.setPort p r).leak = s.leak := by cases p <;> rfl
@[simp] theorem setPort_link (p : Port) (r : PortRec) (s : State) : (s.setPort p r).link = s.link := by cases p <;> rfl
@[simp] theorem setPort_sense (p : Port) (r : PortRec) (s : State) : (s.setPort p r).sense = s.sense := by cases p <;> rfl
@[simp] theorem setPort_journal (p : Port) (r : PortRec) (s : State) : (s.setPort p r).journal = s.journal := by cases p <;> rfl
@[simp] theorem setPort_store (p : Port) (r : PortRec) (s : State) : (s.setPort p r).store = s.store := by cases p <;> rfl
@[simp] theorem setPort_hold (p : Port) (r : PortRec) (s : State) : (s.setPort p r).hold = s.hold := by cases p <;> rfl
@[simp] theorem setPort_sup (p : Port) (r : PortRec) (s : State) : (s.setPort p r).sup = s.sup := by cases p <;> rfl
@[simp] theorem setPort_agenda (p : Port) (r : PortRec) (s : State) : (s.setPort p r).agenda = s.agenda := by cases p <;> rfl
@[simp] theorem setPort_draws (p : Port) (r : PortRec) (s : State) : (s.setPort p r).draws = s.draws := by cases p <;> rfl

/-! ### mapPorts -/

@[simp] theorem mapPorts_pending (f : PortRec → PortRec) (s : State) : (s.mapPorts f).pending = s.pending := rfl
@[simp] theorem mapPorts_trays (f : PortRec → PortRec) (s : State) : (s.mapPorts f).trays = s.trays := rfl
@[simp] theorem mapPorts_queue (f : PortRec → PortRec) (s : State) : (s.mapPorts f).queue = s.queue := rfl
@[simp] theorem mapPorts_park (f : PortRec → PortRec) (s : State) : (s.mapPorts f).park = s.park := rfl
@[simp] theorem mapPorts_trap (f : PortRec → PortRec) (s : State) : (s.mapPorts f).trap = s.trap := rfl
@[simp] theorem mapPorts_acct (f : PortRec → PortRec) (s : State) : (s.mapPorts f).acct = s.acct := rfl
@[simp] theorem mapPorts_seq (f : PortRec → PortRec) (s : State) : (s.mapPorts f).seq = s.seq := rfl
@[simp] theorem mapPorts_hup (f : PortRec → PortRec) (s : State) : (s.mapPorts f).hup = s.hup := rfl
@[simp] theorem mapPorts_leak (f : PortRec → PortRec) (s : State) : (s.mapPorts f).leak = s.leak := rfl
@[simp] theorem mapPorts_link (f : PortRec → PortRec) (s : State) : (s.mapPorts f).link = s.link := rfl
@[simp] theorem mapPorts_sense (f : PortRec → PortRec) (s : State) : (s.mapPorts f).sense = s.sense := rfl
@[simp] theorem mapPorts_journal (f : PortRec → PortRec) (s : State) : (s.mapPorts f).journal = s.journal := rfl
@[simp] theorem mapPorts_store (f : PortRec → PortRec) (s : State) : (s.mapPorts f).store = s.store := rfl
@[simp] theorem mapPorts_hold (f : PortRec → PortRec) (s : State) : (s.mapPorts f).hold = s.hold := rfl
@[simp] theorem mapPorts_sup (f : PortRec → PortRec) (s : State) : (s.mapPorts f).sup = s.sup := rfl
@[simp] theorem mapPorts_agenda (f : PortRec → PortRec) (s : State) : (s.mapPorts f).agenda = s.agenda := rfl
@[simp] theorem mapPorts_draws (f : PortRec → PortRec) (s : State) : (s.mapPorts f).draws = s.draws := rfl

/-! ### raise -/

@[simp] theorem raise_pending (c : Alert) (s : State) : (raise c s).pending = s.pending := rfl
@[simp] theorem raise_trays (c : Alert) (s : State) : (raise c s).trays = s.trays := rfl
@[simp] theorem raise_queue (c : Alert) (s : State) : (raise c s).queue = s.queue := rfl
@[simp] theorem raise_park (c : Alert) (s : State) : (raise c s).park = s.park := rfl
@[simp] theorem raise_trap (c : Alert) (s : State) : (raise c s).trap = s.trap := rfl
@[simp] theorem raise_acct (c : Alert) (s : State) : (raise c s).acct = s.acct := rfl
@[simp] theorem raise_seq (c : Alert) (s : State) : (raise c s).seq = s.seq := rfl
@[simp] theorem raise_hup (c : Alert) (s : State) : (raise c s).hup = s.hup := rfl
@[simp] theorem raise_leak (c : Alert) (s : State) : (raise c s).leak = s.leak := rfl
@[simp] theorem raise_link (c : Alert) (s : State) : (raise c s).link = s.link := rfl
@[simp] theorem raise_sense (c : Alert) (s : State) : (raise c s).sense = s.sense := rfl
@[simp] theorem raise_journal (c : Alert) (s : State) : (raise c s).journal = s.journal := rfl
@[simp] theorem raise_store (c : Alert) (s : State) : (raise c s).store = s.store := rfl
@[simp] theorem raise_hold (c : Alert) (s : State) : (raise c s).hold = s.hold := rfl
@[simp] theorem raise_sup (c : Alert) (s : State) : (raise c s).sup = s.sup := rfl
@[simp] theorem raise_agenda (c : Alert) (s : State) : (raise c s).agenda = s.agenda := rfl
@[simp] theorem raise_draws (c : Alert) (s : State) : (raise c s).draws = s.draws := rfl

/-! ### raiseOverrun -/

@[simp] theorem raiseOverrun_pending (p : Port) (s : State) : (raiseOverrun p s).pending = s.pending := by cases p <;> rfl
@[simp] theorem raiseOverrun_trays (p : Port) (s : State) : (raiseOverrun p s).trays = s.trays := by cases p <;> rfl
@[simp] theorem raiseOverrun_queue (p : Port) (s : State) : (raiseOverrun p s).queue = s.queue := by cases p <;> rfl
@[simp] theorem raiseOverrun_park (p : Port) (s : State) : (raiseOverrun p s).park = s.park := by cases p <;> rfl
@[simp] theorem raiseOverrun_trap (p : Port) (s : State) : (raiseOverrun p s).trap = s.trap := by cases p <;> rfl
@[simp] theorem raiseOverrun_acct (p : Port) (s : State) : (raiseOverrun p s).acct = s.acct := by cases p <;> rfl
@[simp] theorem raiseOverrun_seq (p : Port) (s : State) : (raiseOverrun p s).seq = s.seq := by cases p <;> rfl
@[simp] theorem raiseOverrun_hup (p : Port) (s : State) : (raiseOverrun p s).hup = s.hup := by cases p <;> rfl
@[simp] theorem raiseOverrun_leak (p : Port) (s : State) : (raiseOverrun p s).leak = s.leak := by cases p <;> rfl
@[simp] theorem raiseOverrun_link (p : Port) (s : State) : (raiseOverrun p s).link = s.link := by cases p <;> rfl
@[simp] theorem raiseOverrun_sense (p : Port) (s : State) : (raiseOverrun p s).sense = s.sense := by cases p <;> rfl
@[simp] theorem raiseOverrun_journal (p : Port) (s : State) : (raiseOverrun p s).journal = s.journal := by cases p <;> rfl
@[simp] theorem raiseOverrun_store (p : Port) (s : State) : (raiseOverrun p s).store = s.store := by cases p <;> rfl
@[simp] theorem raiseOverrun_hold (p : Port) (s : State) : (raiseOverrun p s).hold = s.hold := by cases p <;> rfl
@[simp] theorem raiseOverrun_sup (p : Port) (s : State) : (raiseOverrun p s).sup = s.sup := by cases p <;> rfl
@[simp] theorem raiseOverrun_agenda (p : Port) (s : State) : (raiseOverrun p s).agenda = s.agenda := by cases p <;> rfl
@[simp] theorem raiseOverrun_draws (p : Port) (s : State) : (raiseOverrun p s).draws = s.draws := by cases p <;> rfl

/-! ### journalise -/

@[simp] theorem journalise_pending (k : Kind) (a : Option Subject) (v : Option Nat) (r : Option Reason) (s : State) : (journalise k a v r s).pending = s.pending := rfl
@[simp] theorem journalise_trays (k : Kind) (a : Option Subject) (v : Option Nat) (r : Option Reason) (s : State) : (journalise k a v r s).trays = s.trays := rfl
@[simp] theorem journalise_queue (k : Kind) (a : Option Subject) (v : Option Nat) (r : Option Reason) (s : State) : (journalise k a v r s).queue = s.queue := rfl
@[simp] theorem journalise_park (k : Kind) (a : Option Subject) (v : Option Nat) (r : Option Reason) (s : State) : (journalise k a v r s).park = s.park := rfl
@[simp] theorem journalise_trap (k : Kind) (a : Option Subject) (v : Option Nat) (r : Option Reason) (s : State) : (journalise k a v r s).trap = s.trap := rfl
@[simp] theorem journalise_acct (k : Kind) (a : Option Subject) (v : Option Nat) (r : Option Reason) (s : State) : (journalise k a v r s).acct = s.acct := rfl
@[simp] theorem journalise_seq (k : Kind) (a : Option Subject) (v : Option Nat) (r : Option Reason) (s : State) : (journalise k a v r s).seq = s.seq := rfl
@[simp] theorem journalise_hup (k : Kind) (a : Option Subject) (v : Option Nat) (r : Option Reason) (s : State) : (journalise k a v r s).hup = s.hup := rfl
@[simp] theorem journalise_leak (k : Kind) (a : Option Subject) (v : Option Nat) (r : Option Reason) (s : State) : (journalise k a v r s).leak = s.leak := rfl
@[simp] theorem journalise_link (k : Kind) (a : Option Subject) (v : Option Nat) (r : Option Reason) (s : State) : (journalise k a v r s).link = s.link := rfl
@[simp] theorem journalise_sense (k : Kind) (a : Option Subject) (v : Option Nat) (r : Option Reason) (s : State) : (journalise k a v r s).sense = s.sense := rfl
@[simp] theorem journalise_store (k : Kind) (a : Option Subject) (v : Option Nat) (r : Option Reason) (s : State) : (journalise k a v r s).store = s.store := rfl
@[simp] theorem journalise_hold (k : Kind) (a : Option Subject) (v : Option Nat) (r : Option Reason) (s : State) : (journalise k a v r s).hold = s.hold := rfl
@[simp] theorem journalise_sup (k : Kind) (a : Option Subject) (v : Option Nat) (r : Option Reason) (s : State) : (journalise k a v r s).sup = s.sup := rfl
@[simp] theorem journalise_agenda (k : Kind) (a : Option Subject) (v : Option Nat) (r : Option Reason) (s : State) : (journalise k a v r s).agenda = s.agenda := rfl
@[simp] theorem journalise_draws (k : Kind) (a : Option Subject) (v : Option Nat) (r : Option Reason) (s : State) : (journalise k a v r s).draws = s.draws := rfl

/-! ### setZone -/

@[simp] theorem setZone_pending (z : ZoneId) (r : Zone) (s : State) : (s.setZone z r).pending = s.pending := rfl
@[simp] theorem setZone_trays (z : ZoneId) (r : Zone) (s : State) : (s.setZone z r).trays = s.trays := rfl
@[simp] theorem setZone_queue (z : ZoneId) (r : Zone) (s : State) : (s.setZone z r).queue = s.queue := rfl
@[simp] theorem setZone_park (z : ZoneId) (r : Zone) (s : State) : (s.setZone z r).park = s.park := rfl
@[simp] theorem setZone_trap (z : ZoneId) (r : Zone) (s : State) : (s.setZone z r).trap = s.trap := rfl
@[simp] theorem setZone_acct (z : ZoneId) (r : Zone) (s : State) : (s.setZone z r).acct = s.acct := rfl
@[simp] theorem setZone_seq (z : ZoneId) (r : Zone) (s : State) : (s.setZone z r).seq = s.seq := rfl
@[simp] theorem setZone_hup (z : ZoneId) (r : Zone) (s : State) : (s.setZone z r).hup = s.hup := rfl
@[simp] theorem setZone_link (z : ZoneId) (r : Zone) (s : State) : (s.setZone z r).link = s.link := rfl
@[simp] theorem setZone_sense (z : ZoneId) (r : Zone) (s : State) : (s.setZone z r).sense = s.sense := rfl
@[simp] theorem setZone_portA (z : ZoneId) (r : Zone) (s : State) : (s.setZone z r).portA = s.portA := rfl
@[simp] theorem setZone_portB (z : ZoneId) (r : Zone) (s : State) : (s.setZone z r).portB = s.portB := rfl
@[simp] theorem setZone_journal (z : ZoneId) (r : Zone) (s : State) : (s.setZone z r).journal = s.journal := rfl
@[simp] theorem setZone_store (z : ZoneId) (r : Zone) (s : State) : (s.setZone z r).store = s.store := rfl
@[simp] theorem setZone_hold (z : ZoneId) (r : Zone) (s : State) : (s.setZone z r).hold = s.hold := rfl
@[simp] theorem setZone_sup (z : ZoneId) (r : Zone) (s : State) : (s.setZone z r).sup = s.sup := rfl
@[simp] theorem setZone_agenda (z : ZoneId) (r : Zone) (s : State) : (s.setZone z r).agenda = s.agenda := rfl
@[simp] theorem setZone_draws (z : ZoneId) (r : Zone) (s : State) : (s.setZone z r).draws = s.draws := rfl

/-! ### setStation -/

@[simp] theorem setStation_pending (a : StationId) (r : Station) (s : State) : (s.setStation a r).pending = s.pending := rfl
@[simp] theorem setStation_trays (a : StationId) (r : Station) (s : State) : (s.setStation a r).trays = s.trays := rfl
@[simp] theorem setStation_queue (a : StationId) (r : Station) (s : State) : (s.setStation a r).queue = s.queue := rfl
@[simp] theorem setStation_park (a : StationId) (r : Station) (s : State) : (s.setStation a r).park = s.park := rfl
@[simp] theorem setStation_trap (a : StationId) (r : Station) (s : State) : (s.setStation a r).trap = s.trap := rfl
@[simp] theorem setStation_acct (a : StationId) (r : Station) (s : State) : (s.setStation a r).acct = s.acct := rfl
@[simp] theorem setStation_seq (a : StationId) (r : Station) (s : State) : (s.setStation a r).seq = s.seq := rfl
@[simp] theorem setStation_hup (a : StationId) (r : Station) (s : State) : (s.setStation a r).hup = s.hup := rfl
@[simp] theorem setStation_leak (a : StationId) (r : Station) (s : State) : (s.setStation a r).leak = s.leak := rfl
@[simp] theorem setStation_sense (a : StationId) (r : Station) (s : State) : (s.setStation a r).sense = s.sense := rfl
@[simp] theorem setStation_portA (a : StationId) (r : Station) (s : State) : (s.setStation a r).portA = s.portA := rfl
@[simp] theorem setStation_portB (a : StationId) (r : Station) (s : State) : (s.setStation a r).portB = s.portB := rfl
@[simp] theorem setStation_journal (a : StationId) (r : Station) (s : State) : (s.setStation a r).journal = s.journal := rfl
@[simp] theorem setStation_store (a : StationId) (r : Station) (s : State) : (s.setStation a r).store = s.store := rfl
@[simp] theorem setStation_hold (a : StationId) (r : Station) (s : State) : (s.setStation a r).hold = s.hold := rfl
@[simp] theorem setStation_sup (a : StationId) (r : Station) (s : State) : (s.setStation a r).sup = s.sup := rfl
@[simp] theorem setStation_agenda (a : StationId) (r : Station) (s : State) : (s.setStation a r).agenda = s.agenda := rfl
@[simp] theorem setStation_draws (a : StationId) (r : Station) (s : State) : (s.setStation a r).draws = s.draws := rfl

/-! ### setLatches -/

@[simp] theorem setLatches_pending (z : ZoneId) (v : Bool) (s : State) : (setLatches z v s).pending = s.pending := rfl
@[simp] theorem setLatches_trays (z : ZoneId) (v : Bool) (s : State) : (setLatches z v s).trays = s.trays := rfl
@[simp] theorem setLatches_queue (z : ZoneId) (v : Bool) (s : State) : (setLatches z v s).queue = s.queue := rfl
@[simp] theorem setLatches_park (z : ZoneId) (v : Bool) (s : State) : (setLatches z v s).park = s.park := rfl
@[simp] theorem setLatches_trap (z : ZoneId) (v : Bool) (s : State) : (setLatches z v s).trap = s.trap := rfl
@[simp] theorem setLatches_acct (z : ZoneId) (v : Bool) (s : State) : (setLatches z v s).acct = s.acct := rfl
@[simp] theorem setLatches_seq (z : ZoneId) (v : Bool) (s : State) : (setLatches z v s).seq = s.seq := rfl
@[simp] theorem setLatches_hup (z : ZoneId) (v : Bool) (s : State) : (setLatches z v s).hup = s.hup := rfl
@[simp] theorem setLatches_leak (z : ZoneId) (v : Bool) (s : State) : (setLatches z v s).leak = s.leak := rfl
@[simp] theorem setLatches_link (z : ZoneId) (v : Bool) (s : State) : (setLatches z v s).link = s.link := rfl
@[simp] theorem setLatches_sense (z : ZoneId) (v : Bool) (s : State) : (setLatches z v s).sense = s.sense := rfl
@[simp] theorem setLatches_portA (z : ZoneId) (v : Bool) (s : State) : (setLatches z v s).portA = s.portA := rfl
@[simp] theorem setLatches_portB (z : ZoneId) (v : Bool) (s : State) : (setLatches z v s).portB = s.portB := rfl
@[simp] theorem setLatches_journal (z : ZoneId) (v : Bool) (s : State) : (setLatches z v s).journal = s.journal := rfl
@[simp] theorem setLatches_store (z : ZoneId) (v : Bool) (s : State) : (setLatches z v s).store = s.store := rfl
@[simp] theorem setLatches_sup (z : ZoneId) (v : Bool) (s : State) : (setLatches z v s).sup = s.sup := rfl
@[simp] theorem setLatches_agenda (z : ZoneId) (v : Bool) (s : State) : (setLatches z v s).agenda = s.agenda := rfl
@[simp] theorem setLatches_draws (z : ZoneId) (v : Bool) (s : State) : (setLatches z v s).draws = s.draws := rfl

/-! ### respond -/

@[simp] theorem respond_pending (p : Port) (tag : Byte) (a : Answer) (s : State) : (respond p tag a s).pending = s.pending := by cases p <;> rfl
@[simp] theorem respond_trays (p : Port) (tag : Byte) (a : Answer) (s : State) : (respond p tag a s).trays = s.trays := by cases p <;> rfl
@[simp] theorem respond_queue (p : Port) (tag : Byte) (a : Answer) (s : State) : (respond p tag a s).queue = s.queue := by cases p <;> rfl
@[simp] theorem respond_park (p : Port) (tag : Byte) (a : Answer) (s : State) : (respond p tag a s).park = s.park := by cases p <;> rfl
@[simp] theorem respond_trap (p : Port) (tag : Byte) (a : Answer) (s : State) : (respond p tag a s).trap = s.trap := by cases p <;> rfl
@[simp] theorem respond_acct (p : Port) (tag : Byte) (a : Answer) (s : State) : (respond p tag a s).acct = s.acct := by cases p <;> rfl
@[simp] theorem respond_seq (p : Port) (tag : Byte) (a : Answer) (s : State) : (respond p tag a s).seq = s.seq := by cases p <;> rfl
@[simp] theorem respond_hup (p : Port) (tag : Byte) (a : Answer) (s : State) : (respond p tag a s).hup = s.hup := by cases p <;> rfl
@[simp] theorem respond_leak (p : Port) (tag : Byte) (a : Answer) (s : State) : (respond p tag a s).leak = s.leak := by cases p <;> rfl
@[simp] theorem respond_link (p : Port) (tag : Byte) (a : Answer) (s : State) : (respond p tag a s).link = s.link := by cases p <;> rfl
@[simp] theorem respond_sense (p : Port) (tag : Byte) (a : Answer) (s : State) : (respond p tag a s).sense = s.sense := by cases p <;> rfl
@[simp] theorem respond_journal (p : Port) (tag : Byte) (a : Answer) (s : State) : (respond p tag a s).journal = s.journal := by cases p <;> rfl
@[simp] theorem respond_store (p : Port) (tag : Byte) (a : Answer) (s : State) : (respond p tag a s).store = s.store := by cases p <;> rfl
@[simp] theorem respond_hold (p : Port) (tag : Byte) (a : Answer) (s : State) : (respond p tag a s).hold = s.hold := by cases p <;> rfl
@[simp] theorem respond_sup (p : Port) (tag : Byte) (a : Answer) (s : State) : (respond p tag a s).sup = s.sup := by cases p <;> rfl
@[simp] theorem respond_agenda (p : Port) (tag : Byte) (a : Answer) (s : State) : (respond p tag a s).agenda = s.agenda := by cases p <;> rfl
@[simp] theorem respond_draws (p : Port) (tag : Byte) (a : Answer) (s : State) : (respond p tag a s).draws = s.draws := by cases p <;> rfl

/-! ### setLease -/

@[simp] theorem setLease_pending (p : Port) (l : Option Lease) (s : State) : (setLease p l s).pending = s.pending := by cases p <;> rfl
@[simp] theorem setLease_trays (p : Port) (l : Option Lease) (s : State) : (setLease p l s).trays = s.trays := by cases p <;> rfl
@[simp] theorem setLease_queue (p : Port) (l : Option Lease) (s : State) : (setLease p l s).queue = s.queue := by cases p <;> rfl
@[simp] theorem setLease_park (p : Port) (l : Option Lease) (s : State) : (setLease p l s).park = s.park := by cases p <;> rfl
@[simp] theorem setLease_trap (p : Port) (l : Option Lease) (s : State) : (setLease p l s).trap = s.trap := by cases p <;> rfl
@[simp] theorem setLease_acct (p : Port) (l : Option Lease) (s : State) : (setLease p l s).acct = s.acct := by cases p <;> rfl
@[simp] theorem setLease_seq (p : Port) (l : Option Lease) (s : State) : (setLease p l s).seq = s.seq := by cases p <;> rfl
@[simp] theorem setLease_hup (p : Port) (l : Option Lease) (s : State) : (setLease p l s).hup = s.hup := by cases p <;> rfl
@[simp] theorem setLease_leak (p : Port) (l : Option Lease) (s : State) : (setLease p l s).leak = s.leak := by cases p <;> rfl
@[simp] theorem setLease_link (p : Port) (l : Option Lease) (s : State) : (setLease p l s).link = s.link := by cases p <;> rfl
@[simp] theorem setLease_sense (p : Port) (l : Option Lease) (s : State) : (setLease p l s).sense = s.sense := by cases p <;> rfl
@[simp] theorem setLease_journal (p : Port) (l : Option Lease) (s : State) : (setLease p l s).journal = s.journal := by cases p <;> rfl
@[simp] theorem setLease_store (p : Port) (l : Option Lease) (s : State) : (setLease p l s).store = s.store := by cases p <;> rfl
@[simp] theorem setLease_hold (p : Port) (l : Option Lease) (s : State) : (setLease p l s).hold = s.hold := by cases p <;> rfl
@[simp] theorem setLease_sup (p : Port) (l : Option Lease) (s : State) : (setLease p l s).sup = s.sup := by cases p <;> rfl
@[simp] theorem setLease_agenda (p : Port) (l : Option Lease) (s : State) : (setLease p l s).agenda = s.agenda := by cases p <;> rfl
@[simp] theorem setLease_draws (p : Port) (l : Option Lease) (s : State) : (setLease p l s).draws = s.draws := by cases p <;> rfl

/-! ### setStage -/

@[simp] theorem setStage_pending (v : Option Stage) (s : State) : (setStage v s).pending = s.pending := rfl
@[simp] theorem setStage_trays (v : Option Stage) (s : State) : (setStage v s).trays = s.trays := rfl
@[simp] theorem setStage_queue (v : Option Stage) (s : State) : (setStage v s).queue = s.queue := rfl
@[simp] theorem setStage_park (v : Option Stage) (s : State) : (setStage v s).park = s.park := rfl
@[simp] theorem setStage_trap (v : Option Stage) (s : State) : (setStage v s).trap = s.trap := rfl
@[simp] theorem setStage_acct (v : Option Stage) (s : State) : (setStage v s).acct = s.acct := rfl
@[simp] theorem setStage_seq (v : Option Stage) (s : State) : (setStage v s).seq = s.seq := rfl
@[simp] theorem setStage_leak (v : Option Stage) (s : State) : (setStage v s).leak = s.leak := rfl
@[simp] theorem setStage_link (v : Option Stage) (s : State) : (setStage v s).link = s.link := rfl
@[simp] theorem setStage_sense (v : Option Stage) (s : State) : (setStage v s).sense = s.sense := rfl
@[simp] theorem setStage_portA (v : Option Stage) (s : State) : (setStage v s).portA = s.portA := rfl
@[simp] theorem setStage_portB (v : Option Stage) (s : State) : (setStage v s).portB = s.portB := rfl
@[simp] theorem setStage_journal (v : Option Stage) (s : State) : (setStage v s).journal = s.journal := rfl
@[simp] theorem setStage_store (v : Option Stage) (s : State) : (setStage v s).store = s.store := rfl
@[simp] theorem setStage_hold (v : Option Stage) (s : State) : (setStage v s).hold = s.hold := rfl
@[simp] theorem setStage_sup (v : Option Stage) (s : State) : (setStage v s).sup = s.sup := rfl
@[simp] theorem setStage_agenda (v : Option Stage) (s : State) : (setStage v s).agenda = s.agenda := rfl
@[simp] theorem setStage_draws (v : Option Stage) (s : State) : (setStage v s).draws = s.draws := rfl

/-! ### setUsable -/

@[simp] theorem setUsable_pending (s : State) : (setUsable s).pending = s.pending := rfl
@[simp] theorem setUsable_trays (s : State) : (setUsable s).trays = s.trays := rfl
@[simp] theorem setUsable_queue (s : State) : (setUsable s).queue = s.queue := rfl
@[simp] theorem setUsable_park (s : State) : (setUsable s).park = s.park := rfl
@[simp] theorem setUsable_trap (s : State) : (setUsable s).trap = s.trap := rfl
@[simp] theorem setUsable_seq (s : State) : (setUsable s).seq = s.seq := rfl
@[simp] theorem setUsable_hup (s : State) : (setUsable s).hup = s.hup := rfl
@[simp] theorem setUsable_leak (s : State) : (setUsable s).leak = s.leak := rfl
@[simp] theorem setUsable_link (s : State) : (setUsable s).link = s.link := rfl
@[simp] theorem setUsable_sense (s : State) : (setUsable s).sense = s.sense := rfl
@[simp] theorem setUsable_portA (s : State) : (setUsable s).portA = s.portA := rfl
@[simp] theorem setUsable_portB (s : State) : (setUsable s).portB = s.portB := rfl
@[simp] theorem setUsable_journal (s : State) : (setUsable s).journal = s.journal := rfl
@[simp] theorem setUsable_store (s : State) : (setUsable s).store = s.store := rfl
@[simp] theorem setUsable_hold (s : State) : (setUsable s).hold = s.hold := rfl
@[simp] theorem setUsable_sup (s : State) : (setUsable s).sup = s.sup := rfl
@[simp] theorem setUsable_agenda (s : State) : (setUsable s).agenda = s.agenda := rfl
@[simp] theorem setUsable_draws (s : State) : (setUsable s).draws = s.draws := rfl

/-! ### emptyPoll -/

@[simp] theorem emptyPoll_pending (s : State) : (emptyPoll s).pending = s.pending := rfl
@[simp] theorem emptyPoll_trays (s : State) : (emptyPoll s).trays = s.trays := rfl
@[simp] theorem emptyPoll_queue (s : State) : (emptyPoll s).queue = s.queue := rfl
@[simp] theorem emptyPoll_park (s : State) : (emptyPoll s).park = s.park := rfl
@[simp] theorem emptyPoll_trap (s : State) : (emptyPoll s).trap = s.trap := rfl
@[simp] theorem emptyPoll_acct (s : State) : (emptyPoll s).acct = s.acct := rfl
@[simp] theorem emptyPoll_seq (s : State) : (emptyPoll s).seq = s.seq := rfl
@[simp] theorem emptyPoll_hup (s : State) : (emptyPoll s).hup = s.hup := rfl
@[simp] theorem emptyPoll_leak (s : State) : (emptyPoll s).leak = s.leak := rfl
@[simp] theorem emptyPoll_sense (s : State) : (emptyPoll s).sense = s.sense := rfl
@[simp] theorem emptyPoll_portA (s : State) : (emptyPoll s).portA = s.portA := rfl
@[simp] theorem emptyPoll_portB (s : State) : (emptyPoll s).portB = s.portB := rfl
@[simp] theorem emptyPoll_journal (s : State) : (emptyPoll s).journal = s.journal := rfl
@[simp] theorem emptyPoll_store (s : State) : (emptyPoll s).store = s.store := rfl
@[simp] theorem emptyPoll_hold (s : State) : (emptyPoll s).hold = s.hold := rfl
@[simp] theorem emptyPoll_sup (s : State) : (emptyPoll s).sup = s.sup := rfl
@[simp] theorem emptyPoll_agenda (s : State) : (emptyPoll s).agenda = s.agenda := rfl
@[simp] theorem emptyPoll_draws (s : State) : (emptyPoll s).draws = s.draws := rfl

/-! ### setLow -/

@[simp] theorem setLow_pending (v : Bool) (s : State) : (setLow v s).pending = s.pending := rfl
@[simp] theorem setLow_trays (v : Bool) (s : State) : (setLow v s).trays = s.trays := rfl
@[simp] theorem setLow_queue (v : Bool) (s : State) : (setLow v s).queue = s.queue := rfl
@[simp] theorem setLow_park (v : Bool) (s : State) : (setLow v s).park = s.park := rfl
@[simp] theorem setLow_trap (v : Bool) (s : State) : (setLow v s).trap = s.trap := rfl
@[simp] theorem setLow_acct (v : Bool) (s : State) : (setLow v s).acct = s.acct := rfl
@[simp] theorem setLow_seq (v : Bool) (s : State) : (setLow v s).seq = s.seq := rfl
@[simp] theorem setLow_hup (v : Bool) (s : State) : (setLow v s).hup = s.hup := rfl
@[simp] theorem setLow_leak (v : Bool) (s : State) : (setLow v s).leak = s.leak := rfl
@[simp] theorem setLow_link (v : Bool) (s : State) : (setLow v s).link = s.link := rfl
@[simp] theorem setLow_portA (v : Bool) (s : State) : (setLow v s).portA = s.portA := rfl
@[simp] theorem setLow_portB (v : Bool) (s : State) : (setLow v s).portB = s.portB := rfl
@[simp] theorem setLow_journal (v : Bool) (s : State) : (setLow v s).journal = s.journal := rfl
@[simp] theorem setLow_store (v : Bool) (s : State) : (setLow v s).store = s.store := rfl
@[simp] theorem setLow_hold (v : Bool) (s : State) : (setLow v s).hold = s.hold := rfl
@[simp] theorem setLow_sup (v : Bool) (s : State) : (setLow v s).sup = s.sup := rfl
@[simp] theorem setLow_agenda (v : Bool) (s : State) : (setLow v s).agenda = s.agenda := rfl
@[simp] theorem setLow_draws (v : Bool) (s : State) : (setLow v s).draws = s.draws := rfl

/-! ### setHigh -/

@[simp] theorem setHigh_pending (v : Bool) (s : State) : (setHigh v s).pending = s.pending := rfl
@[simp] theorem setHigh_trays (v : Bool) (s : State) : (setHigh v s).trays = s.trays := rfl
@[simp] theorem setHigh_queue (v : Bool) (s : State) : (setHigh v s).queue = s.queue := rfl
@[simp] theorem setHigh_park (v : Bool) (s : State) : (setHigh v s).park = s.park := rfl
@[simp] theorem setHigh_trap (v : Bool) (s : State) : (setHigh v s).trap = s.trap := rfl
@[simp] theorem setHigh_acct (v : Bool) (s : State) : (setHigh v s).acct = s.acct := rfl
@[simp] theorem setHigh_seq (v : Bool) (s : State) : (setHigh v s).seq = s.seq := rfl
@[simp] theorem setHigh_hup (v : Bool) (s : State) : (setHigh v s).hup = s.hup := rfl
@[simp] theorem setHigh_leak (v : Bool) (s : State) : (setHigh v s).leak = s.leak := rfl
@[simp] theorem setHigh_link (v : Bool) (s : State) : (setHigh v s).link = s.link := rfl
@[simp] theorem setHigh_portA (v : Bool) (s : State) : (setHigh v s).portA = s.portA := rfl
@[simp] theorem setHigh_portB (v : Bool) (s : State) : (setHigh v s).portB = s.portB := rfl
@[simp] theorem setHigh_journal (v : Bool) (s : State) : (setHigh v s).journal = s.journal := rfl
@[simp] theorem setHigh_store (v : Bool) (s : State) : (setHigh v s).store = s.store := rfl
@[simp] theorem setHigh_hold (v : Bool) (s : State) : (setHigh v s).hold = s.hold := rfl
@[simp] theorem setHigh_sup (v : Bool) (s : State) : (setHigh v s).sup = s.sup := rfl
@[simp] theorem setHigh_agenda (v : Bool) (s : State) : (setHigh v s).agenda = s.agenda := rfl
@[simp] theorem setHigh_draws (v : Bool) (s : State) : (setHigh v s).draws = s.draws := rfl

/-! ### setStaging -/

@[simp] theorem setStaging_pending (g : Staging) (s : State) : (setStaging g s).pending = s.pending := rfl
@[simp] theorem setStaging_trays (g : Staging) (s : State) : (setStaging g s).trays = s.trays := rfl
@[simp] theorem setStaging_queue (g : Staging) (s : State) : (setStaging g s).queue = s.queue := rfl
@[simp] theorem setStaging_park (g : Staging) (s : State) : (setStaging g s).park = s.park := rfl
@[simp] theorem setStaging_trap (g : Staging) (s : State) : (setStaging g s).trap = s.trap := rfl
@[simp] theorem setStaging_acct (g : Staging) (s : State) : (setStaging g s).acct = s.acct := rfl
@[simp] theorem setStaging_hup (g : Staging) (s : State) : (setStaging g s).hup = s.hup := rfl
@[simp] theorem setStaging_leak (g : Staging) (s : State) : (setStaging g s).leak = s.leak := rfl
@[simp] theorem setStaging_link (g : Staging) (s : State) : (setStaging g s).link = s.link := rfl
@[simp] theorem setStaging_sense (g : Staging) (s : State) : (setStaging g s).sense = s.sense := rfl
@[simp] theorem setStaging_portA (g : Staging) (s : State) : (setStaging g s).portA = s.portA := rfl
@[simp] theorem setStaging_portB (g : Staging) (s : State) : (setStaging g s).portB = s.portB := rfl
@[simp] theorem setStaging_journal (g : Staging) (s : State) : (setStaging g s).journal = s.journal := rfl
@[simp] theorem setStaging_store (g : Staging) (s : State) : (setStaging g s).store = s.store := rfl
@[simp] theorem setStaging_hold (g : Staging) (s : State) : (setStaging g s).hold = s.hold := rfl
@[simp] theorem setStaging_sup (g : Staging) (s : State) : (setStaging g s).sup = s.sup := rfl
@[simp] theorem setStaging_agenda (g : Staging) (s : State) : (setStaging g s).agenda = s.agenda := rfl
@[simp] theorem setStaging_draws (g : Staging) (s : State) : (setStaging g s).draws = s.draws := rfl

/-! ### clearStaging -/

@[simp] theorem clearStaging_pending (s : State) : (clearStaging s).pending = s.pending := rfl
@[simp] theorem clearStaging_trays (s : State) : (clearStaging s).trays = s.trays := rfl
@[simp] theorem clearStaging_queue (s : State) : (clearStaging s).queue = s.queue := rfl
@[simp] theorem clearStaging_park (s : State) : (clearStaging s).park = s.park := rfl
@[simp] theorem clearStaging_trap (s : State) : (clearStaging s).trap = s.trap := rfl
@[simp] theorem clearStaging_acct (s : State) : (clearStaging s).acct = s.acct := rfl
@[simp] theorem clearStaging_hup (s : State) : (clearStaging s).hup = s.hup := rfl
@[simp] theorem clearStaging_leak (s : State) : (clearStaging s).leak = s.leak := rfl
@[simp] theorem clearStaging_link (s : State) : (clearStaging s).link = s.link := rfl
@[simp] theorem clearStaging_sense (s : State) : (clearStaging s).sense = s.sense := rfl
@[simp] theorem clearStaging_portA (s : State) : (clearStaging s).portA = s.portA := rfl
@[simp] theorem clearStaging_portB (s : State) : (clearStaging s).portB = s.portB := rfl
@[simp] theorem clearStaging_journal (s : State) : (clearStaging s).journal = s.journal := rfl
@[simp] theorem clearStaging_store (s : State) : (clearStaging s).store = s.store := rfl
@[simp] theorem clearStaging_hold (s : State) : (clearStaging s).hold = s.hold := rfl
@[simp] theorem clearStaging_sup (s : State) : (clearStaging s).sup = s.sup := rfl
@[simp] theorem clearStaging_agenda (s : State) : (clearStaging s).agenda = s.agenda := rfl
@[simp] theorem clearStaging_draws (s : State) : (clearStaging s).draws = s.draws := rfl

/-! ### trapFailure -/

@[simp] theorem trapFailure_pending (c : TrapSource) (s : State) : (trapFailure c s).pending = s.pending := by unfold trapFailure; split <;> rfl
@[simp] theorem trapFailure_trays (c : TrapSource) (s : State) : (trapFailure c s).trays = s.trays := by unfold trapFailure; split <;> rfl
@[simp] theorem trapFailure_queue (c : TrapSource) (s : State) : (trapFailure c s).queue = s.queue := by unfold trapFailure; split <;> rfl
@[simp] theorem trapFailure_park (c : TrapSource) (s : State) : (trapFailure c s).park = s.park := by unfold trapFailure; split <;> rfl
@[simp] theorem trapFailure_acct (c : TrapSource) (s : State) : (trapFailure c s).acct = s.acct := by unfold trapFailure; split <;> rfl
@[simp] theorem trapFailure_seq (c : TrapSource) (s : State) : (trapFailure c s).seq = s.seq := by unfold trapFailure; split <;> rfl
@[simp] theorem trapFailure_hup (c : TrapSource) (s : State) : (trapFailure c s).hup = s.hup := by unfold trapFailure; split <;> rfl
@[simp] theorem trapFailure_leak (c : TrapSource) (s : State) : (trapFailure c s).leak = s.leak := by unfold trapFailure; split <;> rfl
@[simp] theorem trapFailure_link (c : TrapSource) (s : State) : (trapFailure c s).link = s.link := by unfold trapFailure; split <;> rfl
@[simp] theorem trapFailure_sense (c : TrapSource) (s : State) : (trapFailure c s).sense = s.sense := by unfold trapFailure; split <;> rfl
@[simp] theorem trapFailure_portA (c : TrapSource) (s : State) : (trapFailure c s).portA = s.portA := by unfold trapFailure; split <;> rfl
@[simp] theorem trapFailure_portB (c : TrapSource) (s : State) : (trapFailure c s).portB = s.portB := by unfold trapFailure; split <;> rfl
@[simp] theorem trapFailure_journal (c : TrapSource) (s : State) : (trapFailure c s).journal = s.journal := by unfold trapFailure; split <;> rfl
@[simp] theorem trapFailure_store (c : TrapSource) (s : State) : (trapFailure c s).store = s.store := by unfold trapFailure; split <;> rfl
@[simp] theorem trapFailure_hold (c : TrapSource) (s : State) : (trapFailure c s).hold = s.hold := by unfold trapFailure; split <;> rfl
@[simp] theorem trapFailure_sup (c : TrapSource) (s : State) : (trapFailure c s).sup = s.sup := by unfold trapFailure; split <;> rfl
@[simp] theorem trapFailure_agenda (c : TrapSource) (s : State) : (trapFailure c s).agenda = s.agenda := by unfold trapFailure; split <;> rfl
@[simp] theorem trapFailure_draws (c : TrapSource) (s : State) : (trapFailure c s).draws = s.draws := by unfold trapFailure; split <;> rfl

/-! ### sortPark -/

@[simp] theorem sortPark_pending (s : State) : (sortPark s).pending = s.pending := rfl
@[simp] theorem sortPark_trays (s : State) : (sortPark s).trays = s.trays := rfl
@[simp] theorem sortPark_queue (s : State) : (sortPark s).queue = s.queue := rfl
@[simp] theorem sortPark_trap (s : State) : (sortPark s).trap = s.trap := rfl
@[simp] theorem sortPark_acct (s : State) : (sortPark s).acct = s.acct := rfl
@[simp] theorem sortPark_seq (s : State) : (sortPark s).seq = s.seq := rfl
@[simp] theorem sortPark_hup (s : State) : (sortPark s).hup = s.hup := rfl
@[simp] theorem sortPark_leak (s : State) : (sortPark s).leak = s.leak := rfl
@[simp] theorem sortPark_link (s : State) : (sortPark s).link = s.link := rfl
@[simp] theorem sortPark_sense (s : State) : (sortPark s).sense = s.sense := rfl
@[simp] theorem sortPark_portA (s : State) : (sortPark s).portA = s.portA := rfl
@[simp] theorem sortPark_portB (s : State) : (sortPark s).portB = s.portB := rfl
@[simp] theorem sortPark_journal (s : State) : (sortPark s).journal = s.journal := rfl
@[simp] theorem sortPark_store (s : State) : (sortPark s).store = s.store := rfl
@[simp] theorem sortPark_hold (s : State) : (sortPark s).hold = s.hold := rfl
@[simp] theorem sortPark_sup (s : State) : (sortPark s).sup = s.sup := rfl
@[simp] theorem sortPark_agenda (s : State) : (sortPark s).agenda = s.agenda := rfl
@[simp] theorem sortPark_draws (s : State) : (sortPark s).draws = s.draws := rfl

/-! ### freeSlot -/

@[simp] theorem freeSlot_pending (t : TrayId) (s : State) : (freeSlot t s).pending = s.pending := rfl
@[simp] theorem freeSlot_trays (t : TrayId) (s : State) : (freeSlot t s).trays = s.trays := rfl
@[simp] theorem freeSlot_queue (t : TrayId) (s : State) : (freeSlot t s).queue = s.queue := rfl
@[simp] theorem freeSlot_park (t : TrayId) (s : State) : (freeSlot t s).park = s.park := rfl
@[simp] theorem freeSlot_trap (t : TrayId) (s : State) : (freeSlot t s).trap = s.trap := rfl
@[simp] theorem freeSlot_acct (t : TrayId) (s : State) : (freeSlot t s).acct = s.acct := rfl
@[simp] theorem freeSlot_hup (t : TrayId) (s : State) : (freeSlot t s).hup = s.hup := rfl
@[simp] theorem freeSlot_leak (t : TrayId) (s : State) : (freeSlot t s).leak = s.leak := rfl
@[simp] theorem freeSlot_link (t : TrayId) (s : State) : (freeSlot t s).link = s.link := rfl
@[simp] theorem freeSlot_sense (t : TrayId) (s : State) : (freeSlot t s).sense = s.sense := rfl
@[simp] theorem freeSlot_portA (t : TrayId) (s : State) : (freeSlot t s).portA = s.portA := rfl
@[simp] theorem freeSlot_portB (t : TrayId) (s : State) : (freeSlot t s).portB = s.portB := rfl
@[simp] theorem freeSlot_journal (t : TrayId) (s : State) : (freeSlot t s).journal = s.journal := rfl
@[simp] theorem freeSlot_store (t : TrayId) (s : State) : (freeSlot t s).store = s.store := rfl
@[simp] theorem freeSlot_hold (t : TrayId) (s : State) : (freeSlot t s).hold = s.hold := rfl
@[simp] theorem freeSlot_sup (t : TrayId) (s : State) : (freeSlot t s).sup = s.sup := rfl
@[simp] theorem freeSlot_draws (t : TrayId) (s : State) : (freeSlot t s).draws = s.draws := rfl

/-! ### enqueue -/

@[simp] theorem enqueue_pending (t : TrayId) (s : State) : (enqueue t s).pending = s.pending := by unfold enqueue; dsimp only; split <;> rfl
@[simp] theorem enqueue_trays (t : TrayId) (s : State) : (enqueue t s).trays = s.trays := by unfold enqueue; dsimp only; split <;> rfl
@[simp] theorem enqueue_park (t : TrayId) (s : State) : (enqueue t s).park = s.park := by unfold enqueue; dsimp only; split <;> rfl
@[simp] theorem enqueue_trap (t : TrayId) (s : State) : (enqueue t s).trap = s.trap := by unfold enqueue; dsimp only; split <;> rfl
@[simp] theorem enqueue_acct (t : TrayId) (s : State) : (enqueue t s).acct = s.acct := by unfold enqueue; dsimp only; split <;> rfl
@[simp] theorem enqueue_hup (t : TrayId) (s : State) : (enqueue t s).hup = s.hup := by unfold enqueue; dsimp only; split <;> rfl
@[simp] theorem enqueue_leak (t : TrayId) (s : State) : (enqueue t s).leak = s.leak := by unfold enqueue; dsimp only; split <;> rfl
@[simp] theorem enqueue_link (t : TrayId) (s : State) : (enqueue t s).link = s.link := by unfold enqueue; dsimp only; split <;> rfl
@[simp] theorem enqueue_sense (t : TrayId) (s : State) : (enqueue t s).sense = s.sense := by unfold enqueue; dsimp only; split <;> rfl
@[simp] theorem enqueue_portA (t : TrayId) (s : State) : (enqueue t s).portA = s.portA := by unfold enqueue; dsimp only; split <;> rfl
@[simp] theorem enqueue_portB (t : TrayId) (s : State) : (enqueue t s).portB = s.portB := by unfold enqueue; dsimp only; split <;> rfl
@[simp] theorem enqueue_journal (t : TrayId) (s : State) : (enqueue t s).journal = s.journal := by unfold enqueue; dsimp only; split <;> rfl
@[simp] theorem enqueue_store (t : TrayId) (s : State) : (enqueue t s).store = s.store := by unfold enqueue; dsimp only; split <;> rfl
@[simp] theorem enqueue_hold (t : TrayId) (s : State) : (enqueue t s).hold = s.hold := by unfold enqueue; dsimp only; split <;> rfl
@[simp] theorem enqueue_sup (t : TrayId) (s : State) : (enqueue t s).sup = s.sup := by unfold enqueue; dsimp only; split <;> rfl
@[simp] theorem enqueue_draws (t : TrayId) (s : State) : (enqueue t s).draws = s.draws := by unfold enqueue; dsimp only; split <;> rfl

/-! ### dequeue -/

@[simp] theorem dequeue_pending (t : TrayId) (s : State) : (dequeue t s).pending = s.pending := by unfold dequeue; dsimp only; split <;> rfl
@[simp] theorem dequeue_trays (t : TrayId) (s : State) : (dequeue t s).trays = s.trays := by unfold dequeue; dsimp only; split <;> rfl
@[simp] theorem dequeue_park (t : TrayId) (s : State) : (dequeue t s).park = s.park := by unfold dequeue; dsimp only; split <;> rfl
@[simp] theorem dequeue_trap (t : TrayId) (s : State) : (dequeue t s).trap = s.trap := by unfold dequeue; dsimp only; split <;> rfl
@[simp] theorem dequeue_acct (t : TrayId) (s : State) : (dequeue t s).acct = s.acct := by unfold dequeue; dsimp only; split <;> rfl
@[simp] theorem dequeue_hup (t : TrayId) (s : State) : (dequeue t s).hup = s.hup := by unfold dequeue; dsimp only; split <;> rfl
@[simp] theorem dequeue_leak (t : TrayId) (s : State) : (dequeue t s).leak = s.leak := by unfold dequeue; dsimp only; split <;> rfl
@[simp] theorem dequeue_link (t : TrayId) (s : State) : (dequeue t s).link = s.link := by unfold dequeue; dsimp only; split <;> rfl
@[simp] theorem dequeue_sense (t : TrayId) (s : State) : (dequeue t s).sense = s.sense := by unfold dequeue; dsimp only; split <;> rfl
@[simp] theorem dequeue_portA (t : TrayId) (s : State) : (dequeue t s).portA = s.portA := by unfold dequeue; dsimp only; split <;> rfl
@[simp] theorem dequeue_portB (t : TrayId) (s : State) : (dequeue t s).portB = s.portB := by unfold dequeue; dsimp only; split <;> rfl
@[simp] theorem dequeue_journal (t : TrayId) (s : State) : (dequeue t s).journal = s.journal := by unfold dequeue; dsimp only; split <;> rfl
@[simp] theorem dequeue_store (t : TrayId) (s : State) : (dequeue t s).store = s.store := by unfold dequeue; dsimp only; split <;> rfl
@[simp] theorem dequeue_hold (t : TrayId) (s : State) : (dequeue t s).hold = s.hold := by unfold dequeue; dsimp only; split <;> rfl
@[simp] theorem dequeue_sup (t : TrayId) (s : State) : (dequeue t s).sup = s.sup := by unfold dequeue; dsimp only; split <;> rfl
@[simp] theorem dequeue_agenda (t : TrayId) (s : State) : (dequeue t s).agenda = s.agenda := by unfold dequeue; dsimp only; split <;> rfl
@[simp] theorem dequeue_draws (t : TrayId) (s : State) : (dequeue t s).draws = s.draws := by unfold dequeue; dsimp only; split <;> rfl

/-! ### setHup -/

@[simp] theorem setHup_pending (h : Holdup) (s : State) : (s.setHup h).pending = s.pending := rfl
@[simp] theorem setHup_trays (h : Holdup) (s : State) : (s.setHup h).trays = s.trays := rfl
@[simp] theorem setHup_queue (h : Holdup) (s : State) : (s.setHup h).queue = s.queue := rfl
@[simp] theorem setHup_park (h : Holdup) (s : State) : (s.setHup h).park = s.park := rfl
@[simp] theorem setHup_trap (h : Holdup) (s : State) : (s.setHup h).trap = s.trap := rfl
@[simp] theorem setHup_acct (h : Holdup) (s : State) : (s.setHup h).acct = s.acct := rfl
@[simp] theorem setHup_seq (h : Holdup) (s : State) : (s.setHup h).seq = s.seq := rfl
@[simp] theorem setHup_leak (h : Holdup) (s : State) : (s.setHup h).leak = s.leak := rfl
@[simp] theorem setHup_link (h : Holdup) (s : State) : (s.setHup h).link = s.link := rfl
@[simp] theorem setHup_sense (h : Holdup) (s : State) : (s.setHup h).sense = s.sense := rfl
@[simp] theorem setHup_portA (h : Holdup) (s : State) : (s.setHup h).portA = s.portA := rfl
@[simp] theorem setHup_portB (h : Holdup) (s : State) : (s.setHup h).portB = s.portB := rfl
@[simp] theorem setHup_journal (h : Holdup) (s : State) : (s.setHup h).journal = s.journal := rfl
@[simp] theorem setHup_store (h : Holdup) (s : State) : (s.setHup h).store = s.store := rfl
@[simp] theorem setHup_hold (h : Holdup) (s : State) : (s.setHup h).hold = s.hold := rfl
@[simp] theorem setHup_sup (h : Holdup) (s : State) : (s.setHup h).sup = s.sup := rfl
@[simp] theorem setHup_agenda (h : Holdup) (s : State) : (s.setHup h).agenda = s.agenda := rfl
@[simp] theorem setHup_draws (h : Holdup) (s : State) : (s.setHup h).draws = s.draws := rfl

/-! ### setAgenda -/

@[simp] theorem setAgenda_pending (a : Agenda) (s : State) : (s.setAgenda a).pending = s.pending := rfl
@[simp] theorem setAgenda_trays (a : Agenda) (s : State) : (s.setAgenda a).trays = s.trays := rfl
@[simp] theorem setAgenda_queue (a : Agenda) (s : State) : (s.setAgenda a).queue = s.queue := rfl
@[simp] theorem setAgenda_park (a : Agenda) (s : State) : (s.setAgenda a).park = s.park := rfl
@[simp] theorem setAgenda_trap (a : Agenda) (s : State) : (s.setAgenda a).trap = s.trap := rfl
@[simp] theorem setAgenda_acct (a : Agenda) (s : State) : (s.setAgenda a).acct = s.acct := rfl
@[simp] theorem setAgenda_seq (a : Agenda) (s : State) : (s.setAgenda a).seq = s.seq := rfl
@[simp] theorem setAgenda_hup (a : Agenda) (s : State) : (s.setAgenda a).hup = s.hup := rfl
@[simp] theorem setAgenda_leak (a : Agenda) (s : State) : (s.setAgenda a).leak = s.leak := rfl
@[simp] theorem setAgenda_link (a : Agenda) (s : State) : (s.setAgenda a).link = s.link := rfl
@[simp] theorem setAgenda_sense (a : Agenda) (s : State) : (s.setAgenda a).sense = s.sense := rfl
@[simp] theorem setAgenda_portA (a : Agenda) (s : State) : (s.setAgenda a).portA = s.portA := rfl
@[simp] theorem setAgenda_portB (a : Agenda) (s : State) : (s.setAgenda a).portB = s.portB := rfl
@[simp] theorem setAgenda_journal (a : Agenda) (s : State) : (s.setAgenda a).journal = s.journal := rfl
@[simp] theorem setAgenda_store (a : Agenda) (s : State) : (s.setAgenda a).store = s.store := rfl
@[simp] theorem setAgenda_hold (a : Agenda) (s : State) : (s.setAgenda a).hold = s.hold := rfl
@[simp] theorem setAgenda_sup (a : Agenda) (s : State) : (s.setAgenda a).sup = s.sup := rfl
@[simp] theorem setAgenda_draws (a : Agenda) (s : State) : (s.setAgenda a).draws = s.draws := rfl

/-! ### setDue -/

@[simp] theorem setDue_pending (d b : Bool) (s : State) : (s.setDue d b).pending = s.pending := rfl
@[simp] theorem setDue_trays (d b : Bool) (s : State) : (s.setDue d b).trays = s.trays := rfl
@[simp] theorem setDue_queue (d b : Bool) (s : State) : (s.setDue d b).queue = s.queue := rfl
@[simp] theorem setDue_park (d b : Bool) (s : State) : (s.setDue d b).park = s.park := rfl
@[simp] theorem setDue_trap (d b : Bool) (s : State) : (s.setDue d b).trap = s.trap := rfl
@[simp] theorem setDue_acct (d b : Bool) (s : State) : (s.setDue d b).acct = s.acct := rfl
@[simp] theorem setDue_hup (d b : Bool) (s : State) : (s.setDue d b).hup = s.hup := rfl
@[simp] theorem setDue_leak (d b : Bool) (s : State) : (s.setDue d b).leak = s.leak := rfl
@[simp] theorem setDue_link (d b : Bool) (s : State) : (s.setDue d b).link = s.link := rfl
@[simp] theorem setDue_sense (d b : Bool) (s : State) : (s.setDue d b).sense = s.sense := rfl
@[simp] theorem setDue_portA (d b : Bool) (s : State) : (s.setDue d b).portA = s.portA := rfl
@[simp] theorem setDue_portB (d b : Bool) (s : State) : (s.setDue d b).portB = s.portB := rfl
@[simp] theorem setDue_journal (d b : Bool) (s : State) : (s.setDue d b).journal = s.journal := rfl
@[simp] theorem setDue_store (d b : Bool) (s : State) : (s.setDue d b).store = s.store := rfl
@[simp] theorem setDue_hold (d b : Bool) (s : State) : (s.setDue d b).hold = s.hold := rfl
@[simp] theorem setDue_sup (d b : Bool) (s : State) : (s.setDue d b).sup = s.sup := rfl
@[simp] theorem setDue_agenda (d b : Bool) (s : State) : (s.setDue d b).agenda = s.agenda := rfl
@[simp] theorem setDue_draws (d b : Bool) (s : State) : (s.setDue d b).draws = s.draws := rfl

/-! ### setPlan -/

@[simp] theorem setPlan_pending (l : List PlanEntry) (s : State) : (s.setPlan l).pending = s.pending := rfl
@[simp] theorem setPlan_trays (l : List PlanEntry) (s : State) : (s.setPlan l).trays = s.trays := rfl
@[simp] theorem setPlan_queue (l : List PlanEntry) (s : State) : (s.setPlan l).queue = s.queue := rfl
@[simp] theorem setPlan_park (l : List PlanEntry) (s : State) : (s.setPlan l).park = s.park := rfl
@[simp] theorem setPlan_trap (l : List PlanEntry) (s : State) : (s.setPlan l).trap = s.trap := rfl
@[simp] theorem setPlan_acct (l : List PlanEntry) (s : State) : (s.setPlan l).acct = s.acct := rfl
@[simp] theorem setPlan_hup (l : List PlanEntry) (s : State) : (s.setPlan l).hup = s.hup := rfl
@[simp] theorem setPlan_leak (l : List PlanEntry) (s : State) : (s.setPlan l).leak = s.leak := rfl
@[simp] theorem setPlan_link (l : List PlanEntry) (s : State) : (s.setPlan l).link = s.link := rfl
@[simp] theorem setPlan_sense (l : List PlanEntry) (s : State) : (s.setPlan l).sense = s.sense := rfl
@[simp] theorem setPlan_portA (l : List PlanEntry) (s : State) : (s.setPlan l).portA = s.portA := rfl
@[simp] theorem setPlan_portB (l : List PlanEntry) (s : State) : (s.setPlan l).portB = s.portB := rfl
@[simp] theorem setPlan_journal (l : List PlanEntry) (s : State) : (s.setPlan l).journal = s.journal := rfl
@[simp] theorem setPlan_store (l : List PlanEntry) (s : State) : (s.setPlan l).store = s.store := rfl
@[simp] theorem setPlan_hold (l : List PlanEntry) (s : State) : (s.setPlan l).hold = s.hold := rfl
@[simp] theorem setPlan_sup (l : List PlanEntry) (s : State) : (s.setPlan l).sup = s.sup := rfl
@[simp] theorem setPlan_agenda (l : List PlanEntry) (s : State) : (s.setPlan l).agenda = s.agenda := rfl
@[simp] theorem setPlan_draws (l : List PlanEntry) (s : State) : (s.setPlan l).draws = s.draws := rfl

/-! ### setSlot -/

@[simp] theorem setSlot_pending (j : SlotId) (v : Option Slot) (s : State) : (s.setSlot j v).pending = s.pending := rfl
@[simp] theorem setSlot_trays (j : SlotId) (v : Option Slot) (s : State) : (s.setSlot j v).trays = s.trays := rfl
@[simp] theorem setSlot_queue (j : SlotId) (v : Option Slot) (s : State) : (s.setSlot j v).queue = s.queue := rfl
@[simp] theorem setSlot_park (j : SlotId) (v : Option Slot) (s : State) : (s.setSlot j v).park = s.park := rfl
@[simp] theorem setSlot_trap (j : SlotId) (v : Option Slot) (s : State) : (s.setSlot j v).trap = s.trap := rfl
@[simp] theorem setSlot_acct (j : SlotId) (v : Option Slot) (s : State) : (s.setSlot j v).acct = s.acct := rfl
@[simp] theorem setSlot_hup (j : SlotId) (v : Option Slot) (s : State) : (s.setSlot j v).hup = s.hup := rfl
@[simp] theorem setSlot_leak (j : SlotId) (v : Option Slot) (s : State) : (s.setSlot j v).leak = s.leak := rfl
@[simp] theorem setSlot_link (j : SlotId) (v : Option Slot) (s : State) : (s.setSlot j v).link = s.link := rfl
@[simp] theorem setSlot_sense (j : SlotId) (v : Option Slot) (s : State) : (s.setSlot j v).sense = s.sense := rfl
@[simp] theorem setSlot_portA (j : SlotId) (v : Option Slot) (s : State) : (s.setSlot j v).portA = s.portA := rfl
@[simp] theorem setSlot_portB (j : SlotId) (v : Option Slot) (s : State) : (s.setSlot j v).portB = s.portB := rfl
@[simp] theorem setSlot_journal (j : SlotId) (v : Option Slot) (s : State) : (s.setSlot j v).journal = s.journal := rfl
@[simp] theorem setSlot_store (j : SlotId) (v : Option Slot) (s : State) : (s.setSlot j v).store = s.store := rfl
@[simp] theorem setSlot_hold (j : SlotId) (v : Option Slot) (s : State) : (s.setSlot j v).hold = s.hold := rfl
@[simp] theorem setSlot_sup (j : SlotId) (v : Option Slot) (s : State) : (s.setSlot j v).sup = s.sup := rfl
@[simp] theorem setSlot_agenda (j : SlotId) (v : Option Slot) (s : State) : (s.setSlot j v).agenda = s.agenda := rfl
@[simp] theorem setSlot_draws (j : SlotId) (v : Option Slot) (s : State) : (s.setSlot j v).draws = s.draws := rfl
/-! ### What the updates write -/

@[simp] theorem setHup_hup (h : Holdup) (s : State) : (s.setHup h).hup = h := rfl
@[simp] theorem setAgenda_agenda (a : Agenda) (s : State) : (s.setAgenda a).agenda = a := rfl

@[simp] theorem setRecord_trays (t : TrayId) (r : Tray) (s : State) : (s.setRecord t r).trays = s.trays.set t r := rfl
@[simp] theorem putTray_trays (t : TrayId) (r : Tray) (s : State) : (s.putTray t r).trays = s.trays.set t r := rfl
@[simp] theorem opportunity_agenda (s : State) : (opportunity s).agenda = { s.agenda with opportunity := true } := rfl
@[simp] theorem admissionDue_agenda (s : State) : (admissionDue s).agenda = { s.agenda with admission := true } := rfl
@[simp] theorem sortPark_park (s : State) : (sortPark s).park = sortBy s.parkBefore s.park := rfl
@[simp] theorem setPort_port_self (p : Port) (r : PortRec) (s : State) : (s.setPort p r).port p = r := by
  cases p <;> rfl
theorem setPort_port_of_ne {p q : Port} (h : q ≠ p) (r : PortRec) (s : State) :
    (s.setPort p r).port q = s.port q := by
  cases p <;> cases q <;> first | rfl | exact absurd rfl h
@[simp] theorem mapPorts_port (f : PortRec → PortRec) (p : Port) (s : State) : (s.mapPorts f).port p = f (s.port p) := by
  cases p <;> rfl
@[simp] theorem raise_port (c : Alert) (p : Port) (s : State) : (raise c s).port p = (s.port p).setFlag c := by
  cases p <;> rfl
@[simp] theorem setPort_port_eq (p : Port) (s : State) : s.setPort p (s.port p) = s := by cases p <;> rfl
@[simp] theorem setPort_setPort (p : Port) (r r' : PortRec) (s : State) :
    (s.setPort p r).setPort p r' = s.setPort p r' := by cases p <;> rfl
@[simp] theorem respond_port_self (p : Port) (tag : Byte) (a : Answer) (s : State) :
    (respond p tag a s).port p = { s.port p with
      state := .ready, response := some { status := a.status, tag := tag, payload := a.payload }, execTag := none } := by
  cases p <;> rfl
@[simp] theorem setLease_port_self (p : Port) (l : Option Lease) (s : State) :
    (setLease p l s).port p = { s.port p with lease := l } := by cases p <;> rfl

/-! ### Tray records -/

theorem tray_def (s : State) (t : TrayId) : s.tray t = s.trays[t] := rfl

theorem setRecord_tray (t u : TrayId) (r : Tray) (s : State) :
    (s.setRecord t r).tray u = if u = t then r else s.tray u := by
  simp only [State.tray, setRecord_trays, Fin.getElem_fin, Vector.getElem_set, Fin.ext_iff]
  by_cases h : t.val = u.val
  · simp [h]
  · simp [h, Ne.symm h]

theorem putTray_tray (t u : TrayId) (r : Tray) (s : State) :
    (s.putTray t r).tray u = if u = t then r else s.tray u := setRecord_tray t u r s

@[simp] theorem setRecord_tray_self (t : TrayId) (r : Tray) (s : State) : (s.setRecord t r).tray t = r := by
  simp [setRecord_tray]

@[simp] theorem putTray_tray_self (t : TrayId) (r : Tray) (s : State) : (s.putTray t r).tray t = r := by
  simp [putTray_tray]

end Sys2Proof.Machine
end

