-- ==== Sys2Proof/Laws/Evolves.lean ====
section
/-! SUPPORT. The moves out of which every pass, claim and event is made, as one relation between states; what every such
sequence of moves keeps. A proof about an operation cites its lemma `<operation>_evolves` and not its text. -/

namespace Sys2Proof.Machine

/-- The collection that a state belongs to, in code: 1, 2 and 3 for the Start Queue, a slot and the Park List (R3). -/
def TrayState.collection : TrayState → Nat
  | .queued => 1 | .inrush => 2 | .parked => 3 | _ => 0

/-- What a replacement of a record inside a claim keeps: configuration, check code, a lock, and the law of the record. -/
def Tray.follows (r old : Tray) : Prop :=
  r.cfg = old.cfg ∧ r.code = old.code ∧ (old.locked = true → r.locked = true) ∧ (old.lawful → r.lawful)

/-- The second state follows from the first by moves of the blocks: no command, setting, zone state, station record, sense
bank or port response changes. -/
inductive Evolves : State → State → Prop
  | refl (s) : Evolves s s
  | trans {s t u} : Evolves s t → Evolves t u → Evolves s u
  | agenda (a s) : Evolves s (s.setAgenda a)
  | pace (v s) : Evolves s (s.setPace v)
  | entry (k a v r s) : Evolves s (journalise k a v r s)
  | alarm (c s) : Evolves s (raise c s)
  | trapped (x s) : Evolves s (trapFailure x s)
  | drawn (n s) : Evolves s { s with draws := n }
  | sorted (s) : Evolves s (sortPark s)
  | mark (t r s) : r.state = (s.tray t).state → r.commitment = (s.tray t).commitment → r.follows (s.tray t) →
      Evolves s (s.setRecord t r)
  | put (t r s) : r.state.collection = (s.tray t).state.collection →
      (r.state.collection = 0 ∨ r.state = (s.tray t).state) → r.follows (s.tray t) → Evolves s (s.putTray t r)
  | moved (t st g c s) : st ≠ .inrush → (st = .idle ∨ st = .isolated ∨ st = .faulted → g = 0) →
      (c.isSome = true ↔ st = .faulted) → Evolves s (moveBare t st g c s)
  | started (t j code g s) : (s.tray t).state = .queued → s.seq.slots[j] = none →
      Evolves s (armWindow j t code (moveBare t .inrush g none s))
  | reported (i e s) : s.seq.plan[i]? = some e →
      Evolves s (s.setPlan (s.seq.plan.set i { e with reported := true }))
  | judged (j : SlotId) (w rep s) : s.seq.slots[j] = some w →
      Evolves s (s.setSlot j (some { w with report := rep }))
  | holdup (h s) : h.s1 = s.hup.s1 → h.s2 = s.hup.s2 → h.s3 = s.hup.s3 → h.qualification = s.hup.qualification →
      h.cutoff = s.hup.cutoff → Evolves s (s.setHup h)
  | basis (s) : Evolves s (setUsable s)
  | due (d b s) : Evolves s (s.setDue d b)

theorem Evolves.foldl {α : Type} {f : State → α → State} (h : ∀ s a, Evolves s (f s a)) (l : List α) (s : State) :
    Evolves s (l.foldl f s) := by
  induction l generalizing s with
  | nil => exact .refl s
  | cons a l ih => exact (h s a).trans (ih _)

theorem Evolves.foldlPair {α β : Type} {f : State × β → α → State × β} (h : ∀ s n a, Evolves s (f (s, n) a).1)
    (l : List α) (s : State) (n : β) : Evolves s (l.foldl f (s, n)).1 := by
  induction l generalizing s n with
  | nil => exact .refl s
  | cons a l ih =>
    have := h s n a
    simp only [List.foldl_cons]
    exact this.trans (ih _ _)

theorem Evolves.ite {c : Prop} [Decidable c] {s a b : State} (ha : Evolves s a) (hb : Evolves s b) :
    Evolves s (if c then a else b) := by split <;> assumption

end Sys2Proof.Machine
end

