-- ==== Sys2Proof/Laws/Evolutions.lean ====
section
/-! SUPPORT. Every operation of the blocks is a sequence of the moves of Evolves: one lemma per operation. -/

namespace Sys2Proof.Machine

open Evolves

/-! ### Records, locks and isolation -/

theorem opportunity_evolves (s : State) : Evolves s (opportunity s) := .agenda _ s

theorem admissionDue_evolves (s : State) : Evolves s (admissionDue s) := .agenda _ s

theorem move_idle_evolves (t : TrayId) (s : State) : Evolves s (moveBare t .idle 0 none s) :=
  .moved t .idle 0 none s (by decide) (fun _ => rfl) (by simp)

theorem isolate_evolves (z : ZoneId) (t : TrayId) (s : State) : Evolves s (isolate z t s) := by
  unfold isolate
  refine .trans ?_ (admissionDue_evolves _)
  refine .trans ?_ (.entry ..)
  exact .moved t .isolated 0 none s (by decide) (fun _ => rfl) (by simp)

theorem lock_follows (r : Tray) : Tray.follows { r with locked := true, frozen := r.commitment } r := by
  refine ⟨rfl, rfl, fun _ => rfl, fun ⟨h1, h2, h3, h4, h5, h6⟩ => ⟨?_, h2, h3, h4, h5, h6⟩⟩
  revert h1
  cases r.state <;> simp +contextual [Tray.commitFor]

theorem pickLeakZone_evolves (e : Option ZoneId) (s : State) : Evolves s (pickLeakZone e s).2 := by
  unfold pickLeakZone
  split
  · exact .refl s
  · split
    · exact .refl s
    · exact .refl s
    · exact .drawn _ s

theorem lockOne_evolves (e : Option ZoneId) (t : TrayId) (s : State) : Evolves s (lockOne e t s) := by
  unfold lockOne
  have h1 : Evolves s (s.setRecord t { s.tray t with locked := true, frozen := (s.tray t).commitment }) :=
    .mark t _ s rfl rfl (lock_follows _)
  have h2 := h1.trans (.sorted _)
  refine .trans ?_ (.alarm ..)
  refine .trans ?_ (.entry ..)
  refine .trans ?_ (.trapped ..)
  split
  · have h3 := h2.trans (pickLeakZone_evolves e _)
    split
    · rename_i z s' heq
      rw [heq] at h3
      exact h3.trans (isolate_evolves ..)
    · rename_i s' heq
      rw [heq] at h3
      exact h3
  · exact h2

theorem testOne_evolves (e : Option ZoneId) (t : TrayId) (s : State) : Evolves s (testOne e t s) :=
  .ite (lockOne_evolves ..) (.refl s)

theorem testMembers_evolves (e : Option ZoneId) (m : TrayState → Bool) (s : State) : Evolves s (testMembers e m s) :=
  .foldl (fun s _ => .ite (testOne_evolves ..) (.refl s)) _ s

theorem checkReadIn_evolves (e : Option ZoneId) (t : TrayId) (s : State) : Evolves s (checkReadIn e t s) := by
  unfold checkReadIn
  split
  · refine (lockOne_evolves e t s).trans ?_
    dsimp only
    split
    · exact testMembers_evolves ..
    · split
      · exact testMembers_evolves ..
      · exact .refl _
  · exact .refl s

theorem checkRead_evolves (t : TrayId) (s : State) : Evolves s (checkRead t s) := checkReadIn_evolves none t s

theorem resort_evolves (s : State) : Evolves s (resort s) :=
  ((testMembers_evolves ..).trans (testMembers_evolves ..)).trans (.sorted _)

theorem readAll_evolves (s : State) : Evolves s (readAll s) := .foldl (fun s t => checkRead_evolves t s) _ s

theorem move_evolves (t : TrayId) (st : TrayState) (g : Nat) (c : Option FaultCause) (s : State) (h : st ≠ .inrush)
    (hg : st = .idle ∨ st = .isolated ∨ st = .faulted → g = 0) (hc : c.isSome = true ↔ st = .faulted) :
    Evolves s (move t st g c s) := by
  unfold move
  exact (Evolves.moved t st g c s h hg hc).trans (.ite (testMembers_evolves ..) (.refl _))

theorem move_queued_evolves (t : TrayId) (g : Nat) (s : State) : Evolves s (move t .queued g none s) :=
  move_evolves t .queued g none s (by decide) (by simp) (by simp)

theorem move_parked_evolves (t : TrayId) (g : Nat) (s : State) : Evolves s (move t .parked g none s) :=
  move_evolves t .parked g none s (by decide) (by simp) (by simp)

theorem move_run_evolves (t : TrayId) (g : Nat) (s : State) : Evolves s (move t .run g none s) :=
  move_evolves t .run g none s (by decide) (by simp) (by simp)

theorem move_toIdle_evolves (t : TrayId) (s : State) : Evolves s (move t .idle 0 none s) :=
  move_evolves t .idle 0 none s (by decide) (fun _ => rfl) (by simp)

theorem move_faulted_evolves (t : TrayId) (c : FaultCause) (s : State) : Evolves s (move t .faulted 0 (some c) s) :=
  move_evolves t .faulted 0 (some c) s (by decide) (fun _ => rfl) (by simp)

theorem setDeferred_evolves (t : TrayId) (v : Bool) (s : State) (h : v = true → (s.tray t).state.keepsMarks = true) :
    Evolves s (setDeferred t v s) := by
  refine .mark t _ s rfl rfl ⟨rfl, rfl, id, fun ⟨h1, h2, h3, h4, h5, h6⟩ => ⟨?_, h2, ?_, h4, h5, h6⟩⟩
  · simpa [Tray.commitFor] using h1
  · intro hk
    refine ⟨?_, (h3 hk).2⟩
    cases v
    · rfl
    · rw [h rfl] at hk
      exact absurd hk (by decide)

theorem clearAdopted_evolves (t : TrayId) (s : State) : Evolves s (clearAdopted t s) := by
  refine .mark t _ s rfl rfl ⟨rfl, rfl, id, fun ⟨h1, h2, h3, _, h5, h6⟩ => ⟨?_, h2, h3, ?_, h5, h6⟩⟩
  · simpa [Tray.commitFor] using h1
  · exact fun h => absurd h (by simp)

theorem setOverCap_evolves (t : TrayId) (v : Bool) (d : Option Nat) (s : State)
    (h : v = true → (s.tray t).state.keepsMarks = true) : Evolves s (setOverCap t v d s) := by
  unfold setOverCap
  refine .ite (.refl s) ?_
  refine .trans ?_ (.entry ..)
  refine .mark t { s.tray t with overCap := v } s rfl rfl ⟨rfl, rfl, id, ?_⟩
  refine fun ⟨h1, h2, h3, h4, h5, h6⟩ => ⟨?_, h2, ?_, h4, h5, h6⟩
  · simpa [Tray.commitFor] using h1
  · intro hk
    refine ⟨(h3 hk).1, ?_⟩
    cases v
    · rfl
    · rw [h rfl] at hk
      exact absurd hk (by decide)

theorem resizeGrant_evolves (t : TrayId) (g : Nat) (k : Bool) (s : State)
    (h : (s.tray t).state.keepsMarks = true ∨ (s.tray t).state = .parked) : Evolves s (resizeGrant t g k s) := by
  refine .put t _ s rfl (Or.inr rfl) ⟨rfl, rfl, id, fun ⟨h1, h2, h3, h4, h5, h6⟩ => ⟨?_, ?_, ?_, ?_, h5, h6⟩⟩
  · rfl
  · intro hs
    rcases h with h | h
    · rcases hs with hs | hs | hs <;> (rw [show (s.tray t).state = _ from hs] at h; exact absurd h (by decide))
    · rcases hs with hs | hs | hs <;> (rw [show (s.tray t).state = _ from hs] at h; exact absurd h (by decide))
  · exact fun hk => ⟨rfl, (h3 hk).2⟩
  · intro ha
    simp only [Bool.and_eq_true] at ha
    exact h4 ha.1

/-! ### The passes -/

theorem admissionWalk_evolves (l : List TrayId) (s : State) : Evolves s (admissionWalk l s) := by
  induction l generalizing s with
  | nil => exact .refl s
  | cons t ts ih =>
    unfold admissionWalk
    split
    · exact ih s
    · dsimp only
      split
      · exact (checkRead_evolves t s).trans (ih _)
      · split
        · exact (((checkRead_evolves t s).trans (move_queued_evolves ..)).trans (.entry ..)).trans (ih _)
        · exact checkRead_evolves t s

theorem admissionPass_evolves (s : State) : Evolves s (admissionPass s) :=
  .trans (admissionWalk_evolves s.park s) (.agenda ..)

theorem admissionIfAllowed_evolves (s : State) : Evolves s (admissionIfAllowed s) :=
  .ite (admissionPass_evolves s) (.refl s)

theorem shortfallMove_evolves (r : Reason) (t : TrayId) (s : State) : Evolves s (shortfallMove r t s) :=
  ((move_parked_evolves ..).trans (.entry ..)).trans (.alarm ..)

theorem withdrawals_evolves (n : Nat) (s : State) : Evolves s (withdrawals n s) := by
  induction n generalizing s with
  | zero => exact .refl s
  | succ n ih =>
    unfold withdrawals
    split
    · split
      · exact (shortfallMove_evolves ..).trans (ih _)
      · exact .refl s
    · exact .refl s

theorem shedRound_evolves (s : State) : Evolves s (shedRound s).1 := by
  unfold shedRound
  split
  · dsimp only
    exact testMembers_evolves none TrayState.enabled s
  · exact .refl s

theorem sheds_evolves (n : Nat) (s : State) : Evolves s (sheds n s) := by
  induction n generalizing s with
  | zero => exact .refl s
  | succ n ih =>
    have h := shedRound_evolves s
    unfold sheds
    split
    · rename_i u t heq
      rw [heq] at h
      exact (h.trans (shortfallMove_evolves ..)).trans (ih _)
    · rename_i u heq
      rw [heq] at h
      exact h

theorem shortfallRounds_evolves (m n : Nat) (s : State) : Evolves s (sheds m (withdrawals n s)) :=
  (withdrawals_evolves n s).trans (sheds_evolves m _)

theorem shortfallPass_evolves (s : State) : Evolves s (shortfallPass s) := by
  have h := shortfallRounds_evolves 32 32 s
  unfold shortfallPass
  generalize sheds 32 (withdrawals 32 s) = u at h ⊢
  exact h.trans (.agenda _ u)

theorem shortfallIfDue_evolves (s : State) : Evolves s (shortfallIfDue s) := .ite (shortfallPass_evolves s) (.refl s)

/-! ### The holdup states -/

theorem setStage_evolves (v : Option Stage) (s : State) : Evolves s (setStage v s) :=
  .holdup _ s rfl rfl rfl rfl rfl

theorem enterNormal_evolves (s : State) : Evolves s (enterNormal s) := by
  unfold enterNormal
  refine .trans ?_ (.alarm ..)
  refine .trans ?_ (.entry ..)
  refine .trans ?_ (opportunity_evolves _)
  refine .trans ?_ (.ite (.due ..) (.refl _))
  refine .trans ?_ (admissionIfAllowed_evolves _)
  refine .trans ?_ (.basis _)
  exact .holdup _ s rfl rfl rfl rfl rfl

theorem regainTest_evolves (s : State) : Evolves s (regainTest s) := .ite (enterNormal_evolves s) (.refl s)

theorem darkenTray_evolves (s : State) (t : TrayId) : Evolves s (darkenTray s t) := by
  unfold darkenTray
  split
  all_goals first | exact move_idle_evolves t s | exact .refl s

theorem enterColdRegain_evolves (s : State) : Evolves s (enterColdRegain s) := by
  unfold enterColdRegain
  refine .trans ?_ (.entry ..)
  refine .trans ?_ (.basis _)
  exact .holdup _ s rfl rfl rfl rfl rfl

theorem enterDark_evolves (r : Reason) (s : State) : Evolves s (enterDark r s) := by
  have h : Evolves s (allTrays.foldl darkenTray s) := .foldl darkenTray_evolves _ s
  unfold enterDark
  generalize allTrays.foldl darkenTray s = u at h ⊢
  refine .trans ?_ (.ite (.refl _) (enterColdRegain_evolves _))
  refine .trans ?_ (.ite (.refl _) (.alarm ..))
  refine .trans ?_ (.entry ..)
  refine .trans ?_ (.basis _)
  refine .trans ?_ (.due ..)
  refine .trans ?_ (.holdup _ _ rfl rfl rfl rfl rfl)
  exact h.trans (.pace ..)

theorem stageShed_evolves (k : Nat) (s : State) (n : Nat) (t : TrayId) : Evolves s (stageShed k (s, n) t).1 := by
  unfold stageShed
  dsimp only
  split
  · split
    · refine .trans ?_ (.entry ..)
      exact (checkRead_evolves t s).trans (move_parked_evolves ..)
    · exact checkRead_evolves t s
  · exact .refl s

theorem endStage_evolves (k : Nat) (s : State) : Evolves s (endStage k s) := by
  have h : Evolves s (allTrays.foldl (stageShed k) (s, 0)).1 := .foldlPair (stageShed_evolves k) _ s 0
  unfold endStage
  generalize allTrays.foldl (stageShed k) (s, 0) = u at h ⊢
  refine .trans ?_ (regainTest_evolves _)
  refine .trans ?_ (.ite (.refl _) (.alarm ..))
  exact h.trans (.entry ..)

theorem enterOverrun_evolves (s : State) : Evolves s (enterOverrun s) := by
  unfold enterOverrun
  refine .trans ?_ (.alarm ..)
  refine .trans ?_ (.entry ..)
  exact setStage_evolves ..

theorem advanceStages_evolves (n : Nat) (s : State) : Evolves s (advanceStages n s) := by
  induction n generalizing s with
  | zero => exact .refl s
  | succ n ih =>
    have step (k : Nat) (v : Option Stage) : Evolves s (advanceStages n (setStage v (endStage k s))) :=
      ((endStage_evolves k s).trans (setStage_evolves ..)).trans (ih _)
    unfold advanceStages
    split
    · exact .ite (.ite (step ..) (endStage_evolves ..)) (.refl s)
    · exact .ite (.ite (step ..) (endStage_evolves ..)) (.refl s)
    · exact .ite (.ite ((endStage_evolves ..).trans (enterOverrun_evolves _)) (endStage_evolves ..)) (.refl s)
    · exact .refl s

theorem beginEpisode_evolves (s : State) : Evolves s (beginEpisode s) := .holdup _ s rfl rfl rfl rfl rfl

theorem holdupPark_evolves (st : TrayState) (r : Reason) (s : State) (t : TrayId) :
    Evolves s (holdupPark st r s t) := by
  unfold holdupPark
  refine .ite ?_ (.refl s)
  exact .trans (move_parked_evolves ..) (.entry ..)

theorem toHoldup_evolves (s : State) : Evolves s (s.setHup { s.hup with state := .holdup, cold := false }) :=
  .holdup _ s rfl rfl rfl rfl rfl

theorem enterHoldup_evolves (s : State) : Evolves s (enterHoldup s) := by
  have h : Evolves s (allTrays.foldl (holdupPark .queued .withdrawn) s) := .foldl (holdupPark_evolves _ _) _ s
  have h' := h.trans (.foldl (holdupPark_evolves .inrush .shed) allTrays _)
  unfold enterHoldup
  dsimp only
  refine .trans ?_ (advanceStages_evolves 3 _)
  refine .trans ?_ (.alarm ..)
  refine .trans ?_ (.entry ..)
  refine .trans ?_ (beginEpisode_evolves _)
  refine .trans ?_ (shortfallIfDue_evolves _)
  refine .trans ?_ (.basis _)
  refine .trans ?_ (.due ..)
  refine .trans ?_ (toHoldup_evolves _)
  exact h'.trans (.pace none _)

theorem resumeHoldup_evolves (s : State) : Evolves s (resumeHoldup s) := by
  unfold resumeHoldup
  refine .trans ?_ (.alarm ..)
  refine .trans ?_ (.entry ..)
  refine .trans ?_ (.basis _)
  exact .holdup _ s rfl rfl rfl rfl rfl

theorem enterWarmRegain_evolves (s : State) : Evolves s (enterWarmRegain s) := by
  unfold enterWarmRegain
  refine .trans ?_ (.entry ..)
  refine .trans ?_ (.basis _)
  exact .holdup _ s rfl rfl rfl rfl rfl

end Sys2Proof.Machine
end

