-- ==== Sys2Proof/Laws/Keeps.lean ====
section
/-! SUPPORT. What every sequence of the moves of Evolves keeps: each tray's configuration, code, lock and law, and everything of
the units that no pass, claim or lock writes. -/

namespace Sys2Proof.Machine

/-! ### Records -/

theorem Tray.follows_refl (r : Tray) : r.follows r := ⟨rfl, rfl, id, id⟩

theorem Tray.follows_trans {a b c : Tray} (h : a.follows b) (h' : b.follows c) : a.follows c :=
  ⟨h.1.trans h'.1, h.2.1.trans h'.2.1, fun l => h.2.2.1 (h'.2.2.1 l), fun l => h.2.2.2 (h'.2.2.2 l)⟩

/-- A record that enters a state follows the record before, when the grant and the fault cause suit the state. -/
theorem enter_follows (r : Tray) (st : TrayState) (g : Nat) (c : Option FaultCause)
    (hg : st = .idle ∨ st = .isolated ∨ st = .faulted → g = 0) (hc : c.isSome = true ↔ st = .faulted) :
    (r.enter st g c).follows r := by
  refine ⟨rfl, rfl, id, fun ⟨_, _, _, _, _, h6⟩ => ⟨?_, hg, ?_, ?_, hc, h6⟩⟩
  · cases st <;> rfl
  · intro hk
    simp [Tray.enter, show st.keepsMarks = false from hk]
  · intro ha
    simp only [Tray.enter, Bool.and_eq_true, beq_iff_eq] at ha
    exact ha.2

@[simp] theorem leaveCollection_trays (t : TrayId) (s : State) : (leaveCollection t s).trays = s.trays := by
  unfold leaveCollection dequeue freeSlot
  split <;> first | rfl | (dsimp only; split <;> rfl)

@[simp] theorem joinCollection_trays (t : TrayId) (st : TrayState) (s : State) :
    (joinCollection t st s).trays = s.trays := by
  unfold joinCollection enqueue
  split <;> first | rfl | (dsimp only [opportunity, State.setAgenda]; split <;> rfl)

theorem tray_congr {s u : State} (h : u.trays = s.trays) (n : TrayId) : u.tray n = s.tray n := by
  simp only [State.tray, h]

/-- A move writes its tray's record alone. -/
theorem moveBare_tray (t : TrayId) (st : TrayState) (g : Nat) (c : Option FaultCause) (s : State) (n : TrayId) :
    (moveBare t st g c s).tray n = if n = t then (s.tray t).enter st g c else s.tray n := by
  have h : ∀ v : State, v.trays = s.trays →
      (joinCollection t st ((leaveCollection t v).putTray t (((leaveCollection t v).tray t).enter st g c))).tray n =
        if n = t then (s.tray t).enter st g c else s.tray n := by
    intro v hv
    rw [tray_congr (joinCollection_trays ..), putTray_tray, tray_congr ((leaveCollection_trays t v).trans hv),
      tray_congr ((leaveCollection_trays t v).trans hv)]
  unfold moveBare
  dsimp only
  split
  · exact h _ rfl
  · exact h _ rfl

/-- Every record follows the one before: its configuration and code stay, a lock stays, and a lawful record stays lawful. -/
theorem Evolves.follows {s u : State} (h : Evolves s u) (n : TrayId) : (u.tray n).follows (s.tray n) := by
  induction h with
  | refl | agenda | pace | entry | alarm | drawn | sorted | reported | judged | holdup | basis | due =>
    exact Tray.follows_refl _
  | trapped x s =>
    unfold trapFailure
    split <;> exact Tray.follows_refl _
  | trans _ _ h h' => exact Tray.follows_trans h' h
  | mark t r s _ _ hr =>
    rw [setRecord_tray]
    split
    · rename_i e
      exact e ▸ hr
    · exact Tray.follows_refl _
  | put t r s _ _ hr =>
    rw [putTray_tray]
    split
    · rename_i e
      exact e ▸ hr
    · exact Tray.follows_refl _
  | moved t st g c s _ hg hc =>
    rw [moveBare_tray]
    split
    · rename_i e
      exact e ▸ enter_follows _ _ _ _ hg hc
    · exact Tray.follows_refl _
  | started t j code g s _ _ =>
    have : (armWindow j t code (moveBare t .inrush g none s)).tray n = (moveBare t .inrush g none s).tray n := rfl
    rw [this, moveBare_tray]
    split
    · rename_i e
      exact e ▸ enter_follows _ _ _ _ (by simp) (by simp)
    · exact Tray.follows_refl _

theorem Evolves.cfg {s u : State} (h : Evolves s u) (n : TrayId) : u.cfg n = s.cfg n := (h.follows n).1

theorem Evolves.code {s u : State} (h : Evolves s u) (n : TrayId) : (u.tray n).code = (s.tray n).code := (h.follows n).2.1

theorem Evolves.locks {s u : State} (h : Evolves s u) {n : TrayId} (hl : (s.tray n).locked = true) :
    (u.tray n).locked = true := (h.follows n).2.2.1 hl

/-- No move makes an unlawful record. -/
theorem Evolves.recordsLawful {s u : State} (h : Evolves s u) (hs : s.recordsLawful) : u.recordsLawful :=
  fun n => (h.follows n).2.2.2 (hs n)

/-! ### Units -/

/-- The settings and the records of one port that no move writes. -/
def PortRec.service (r : PortRec) : PortState × Option Response × Option Byte × Option Lease × Half × Half :=
  (r.state, r.response, r.execTag, r.lease, r.enable, r.urgent)

/-- The settings of the Sequencer, its plan and its staging. -/
def Sequencer.fixed (q : Sequencer) :
    List (TrayId × CheckCode) × Byte × Vector Nat 32 × Staging × PaceMode × Nat × Nat × Nat × Nat × Nat :=
  (q.plan.map fun e => (e.tray, e.code), q.planRev, q.keys, q.staging, q.paceMode, q.paceInterval, q.k, q.w0, q.w1, q.w2)

/-- Two states agree in everything that no move of Evolves writes. -/
structure SameUnits (s u : State) : Prop where
  pending : u.pending = s.pending
  leak : u.leak = s.leak
  link : u.link = s.link
  sense : u.sense = s.sense
  store : u.store = s.store
  sup : u.sup = s.sup
  record : (u.hold.cause, u.hold.adopted, u.hold.restored, u.hold.result) =
    (s.hold.cause, s.hold.adopted, s.hold.restored, s.hold.result)
  shelf : (u.acct.shelf, u.acct.battery, u.acct.mode, u.acct.redundancy, u.acct.autoRestart) =
    (s.acct.shelf, s.acct.battery, s.acct.mode, s.acct.redundancy, s.acct.autoRestart)
  stages : (u.hup.s1, u.hup.s2, u.hup.s3, u.hup.qualification, u.hup.cutoff) =
    (s.hup.s1, s.hup.s2, s.hup.s3, s.hup.qualification, s.hup.cutoff)
  seq : u.seq.fixed = s.seq.fixed
  portA : u.portA.service = s.portA.service
  portB : u.portB.service = s.portB.service

theorem SameUnits.refl (s : State) : SameUnits s s := ⟨rfl, rfl, rfl, rfl, rfl, rfl, rfl, rfl, rfl, rfl, rfl, rfl⟩

theorem SameUnits.trans {s t u : State} (h : SameUnits s t) (h' : SameUnits t u) : SameUnits s u :=
  ⟨h'.1.trans h.1, h'.2.trans h.2, h'.3.trans h.3, h'.4.trans h.4, h'.5.trans h.5, h'.6.trans h.6, h'.7.trans h.7,
    h'.8.trans h.8, h'.9.trans h.9, h'.10.trans h.10, h'.11.trans h.11, h'.12.trans h.12⟩

theorem entryMade_service (full : Bool) (r : PortRec) : (r.entryMade full).service = r.service := by
  unfold PortRec.entryMade
  split <;> rfl

theorem journalise_sameUnits (k : Kind) (a : Option Subject) (v : Option Nat) (r : Option Reason) (s : State) :
    SameUnits s (journalise k a v r s) :=
  ⟨rfl, rfl, rfl, rfl, rfl, rfl, rfl, rfl, rfl, rfl, entryMade_service .., entryMade_service ..⟩

theorem setRecord_sameUnits (t : TrayId) (r : Tray) (s : State) : SameUnits s (s.setRecord t r) :=
  ⟨rfl, rfl, rfl, rfl, rfl, rfl, rfl, rfl, rfl, rfl, rfl, rfl⟩

theorem putTray_sameUnits (t : TrayId) (r : Tray) (s : State) : SameUnits s (s.putTray t r) :=
  ⟨rfl, rfl, rfl, rfl, rfl, rfl, rfl, rfl, rfl, rfl, rfl, rfl⟩

theorem leaveCollection_sameUnits (t : TrayId) (s : State) : SameUnits s (leaveCollection t s) := by
  unfold leaveCollection dequeue freeSlot
  split
  · dsimp only
    split <;> exact ⟨rfl, rfl, rfl, rfl, rfl, rfl, rfl, rfl, rfl, rfl, rfl, rfl⟩
  all_goals exact ⟨rfl, rfl, rfl, rfl, rfl, rfl, rfl, rfl, rfl, rfl, rfl, rfl⟩

theorem joinCollection_sameUnits (t : TrayId) (st : TrayState) (s : State) : SameUnits s (joinCollection t st s) := by
  unfold joinCollection enqueue
  split
  · dsimp only [opportunity, State.setAgenda]
    split <;> exact ⟨rfl, rfl, rfl, rfl, rfl, rfl, rfl, rfl, rfl, rfl, rfl, rfl⟩
  all_goals exact ⟨rfl, rfl, rfl, rfl, rfl, rfl, rfl, rfl, rfl, rfl, rfl, rfl⟩

theorem moveBare_sameUnits (t : TrayId) (st : TrayState) (g : Nat) (c : Option FaultCause) (s : State) :
    SameUnits s (moveBare t st g c s) := by
  have h (v : State) (hv : SameUnits s v) :=
    ((hv.trans (leaveCollection_sameUnits t v)).trans
      (putTray_sameUnits t (((leaveCollection t v).tray t).enter st g c) _)).trans (joinCollection_sameUnits t st _)
  unfold moveBare
  dsimp only
  split
  · exact h _ (journalise_sameUnits ..)
  · exact h _ (.refl s)

/-- No move of Evolves writes the units of SameUnits. -/
theorem Evolves.sameUnits {s u : State} (h : Evolves s u) : SameUnits s u := by
  induction h with
  | refl s => exact .refl s
  | trans _ _ h h' => exact h.trans h'
  | agenda | pace | alarm | drawn | sorted | judged | basis | due =>
    exact ⟨rfl, rfl, rfl, rfl, rfl, rfl, rfl, rfl, rfl, rfl, rfl, rfl⟩
  | entry => exact journalise_sameUnits ..
  | trapped x s =>
    unfold trapFailure
    split <;> exact ⟨rfl, rfl, rfl, rfl, rfl, rfl, rfl, rfl, rfl, rfl, rfl, rfl⟩
  | mark => exact setRecord_sameUnits ..
  | put => exact putTray_sameUnits ..
  | moved => exact moveBare_sameUnits ..
  | started t j code g s _ _ =>
    exact (moveBare_sameUnits t .inrush g none s).trans ⟨rfl, rfl, rfl, rfl, rfl, rfl, rfl, rfl, rfl, rfl, rfl, rfl⟩
  | reported i e s he =>
    refine ⟨rfl, rfl, rfl, rfl, rfl, rfl, rfl, rfl, rfl, ?_, rfl, rfl⟩
    have : (s.seq.plan.set i { e with reported := true }).map (fun e => (e.tray, e.code)) =
        s.seq.plan.map (fun e => (e.tray, e.code)) := by
      obtain ⟨hi, he⟩ := List.getElem?_eq_some_iff.mp he
      refine List.ext_getElem (by simp) fun k h1 h2 => ?_
      by_cases hk : i = k
      · subst hk
        simp [he]
      · simp [List.getElem_set_ne hk]
    simp only [Sequencer.fixed, State.setPlan, this]
  | holdup h s h1 h2 h3 h4 h5 =>
    refine ⟨rfl, rfl, rfl, rfl, rfl, rfl, rfl, rfl, ?_, rfl, rfl, rfl⟩
    simp [State.setHup, h1, h2, h3, h4, h5]

/-! ### Committed, the enable latches, the ring -/

/-- What a cleared over-cap flag and a change of a tray's record and collection keep, a move keeps. -/
theorem moveBare_keeps {P : State → Prop} (t : TrayId) (st : TrayState) (g : Nat) (c : Option FaultCause) {s : State}
    (clear : ∀ v, P v → P (overCapCleared t v))
    (put : ∀ v, P v → ∀ r, P (joinCollection t st ((leaveCollection t v).putTray t r))) (h : P s) :
    P (moveBare t st g c s) := by
  unfold moveBare
  dsimp only
  split
  · exact put _ (clear _ h) _
  · exact put _ h _

/-- The sum of the commitments, as committed counts them (R30). -/
def State.commitments (s : State) : Nat := (allTrays.map fun t => (s.tray t).commitment).sum

theorem commitments_congr {s u : State} (h : ∀ n, (u.tray n).commitment = (s.tray n).commitment) :
    u.commitments = s.commitments := by
  unfold State.commitments
  exact congrArg List.sum (List.map_congr_left fun n _ => h n)

theorem commitments_putTray (t : TrayId) (r : Tray) (s : State) :
    (s.putTray t r).commitments + (s.tray t).commitment = s.commitments + r.commitment := by
  unfold State.commitments allTrays
  rw [← Fin.sum_univ_def, ← Fin.sum_univ_def, ← Finset.add_sum_erase _ _ (Finset.mem_univ t),
    ← Finset.add_sum_erase (a := t) Finset.univ (fun n => (s.tray n).commitment) (Finset.mem_univ t)]
  have : ∑ n ∈ Finset.univ.erase t, ((s.putTray t r).tray n).commitment =
      ∑ n ∈ Finset.univ.erase t, (s.tray n).commitment :=
    Finset.sum_congr rfl fun n hn => by rw [putTray_tray, if_neg (Finset.ne_of_mem_erase hn)]
  rw [this, putTray_tray_self]
  omega

theorem putTray_committedSums (t : TrayId) (r : Tray) {s : State} (h : s.committedSums) :
    (s.putTray t r).committedSums := by
  have hp := commitments_putTray t r s
  have hs : s.acct.committed = s.commitments := h
  have hle : (s.tray t).commitment ≤ s.commitments := by
    unfold State.commitments
    exact List.single_le_sum (fun _ _ => Nat.zero_le _) _ (List.mem_map_of_mem (List.mem_finRange t))
  show s.acct.committed - (s.tray t).commitment + r.commitment = (s.putTray t r).commitments
  omega

theorem committedSums_congr {s u : State} (ht : u.trays = s.trays) (hc : u.acct.committed = s.acct.committed)
    (h : s.committedSums) : u.committedSums := by
  have hs : s.acct.committed = s.commitments := h
  have hn : u.commitments = s.commitments := commitments_congr fun n => congrArg Tray.commitment (tray_congr ht n)
  exact hc.trans (hs.trans hn.symm)

theorem leaveCollection_acct (t : TrayId) (s : State) : (leaveCollection t s).acct = s.acct := by
  unfold leaveCollection dequeue freeSlot
  split <;> first | rfl | (dsimp only; split <;> rfl)

theorem joinCollection_acct (t : TrayId) (st : TrayState) (s : State) : (joinCollection t st s).acct = s.acct := by
  unfold joinCollection enqueue
  split <;> first | rfl | (dsimp only [opportunity, State.setAgenda]; split <;> rfl)

theorem moveBare_committedSums (t : TrayId) (st : TrayState) (g : Nat) (c : Option FaultCause) {s : State}
    (h : s.committedSums) : (moveBare t st g c s).committedSums := by
  refine moveBare_keeps (P := State.committedSums) t st g c (fun v hv => committedSums_congr (s := v) rfl rfl hv)
    (fun v hv r => ?_) h
  exact committedSums_congr (joinCollection_trays ..) (by rw [joinCollection_acct])
    (putTray_committedSums t r (committedSums_congr (leaveCollection_trays ..) (by rw [leaveCollection_acct]) hv))

/-- Every move keeps committed the sum of the commitments. -/
theorem Evolves.committedSums {s u : State} (h : Evolves s u) (hs : s.committedSums) : u.committedSums := by
  induction h with
  | refl => exact hs
  | trans _ _ h h' => exact h' (h hs)
  | agenda | pace | entry | alarm | drawn | sorted | reported | judged | holdup | basis | due =>
    exact committedSums_congr rfl rfl hs
  | trapped x s =>
    unfold trapFailure
    split <;> exact committedSums_congr (s := s) rfl rfl hs
  | mark t r s _ hc _ =>
    show s.acct.committed = (s.setRecord t r).commitments
    have hn : (s.setRecord t r).commitments = s.commitments := commitments_congr fun n => by
      rw [setRecord_tray]
      split
      · rename_i e
        rw [e, hc]
      · rfl
    exact Eq.trans (b := s.commitments) hs hn.symm
  | put t r s _ _ _ => exact putTray_committedSums t r hs
  | moved t st g c s _ _ _ => exact moveBare_committedSums t st g c hs
  | started t j code g s _ _ => exact committedSums_congr rfl rfl (moveBare_committedSums t .inrush g none hs)

/-- Every enable latch tells its tray's state. -/
def State.enablesTell (s : State) : Prop := ∀ t : TrayId, s.hold.enable[t] = (s.tray t).state.enabled

theorem enablesTell_congr {s u : State} (ht : u.trays = s.trays) (hh : u.hold.enable = s.hold.enable)
    (h : s.enablesTell) : u.enablesTell := by
  intro n
  rw [tray_congr ht, hh]
  exact h n

theorem putTray_enablesTell (t : TrayId) (r : Tray) {s : State} (h : s.enablesTell) : (s.putTray t r).enablesTell := by
  intro n
  rw [putTray_tray]
  by_cases hn : n = t
  · subst hn
    simp [State.putTray]
  · have : (t : Nat) ≠ n := fun e => hn (Fin.ext e.symm)
    simp only [State.putTray, Fin.getElem_fin, Vector.getElem_set, this, hn, if_false]
    exact h n

theorem leaveCollection_hold (t : TrayId) (s : State) : (leaveCollection t s).hold = s.hold := by
  unfold leaveCollection dequeue freeSlot
  split <;> first | rfl | (dsimp only; split <;> rfl)

theorem joinCollection_hold (t : TrayId) (st : TrayState) (s : State) : (joinCollection t st s).hold = s.hold := by
  unfold joinCollection enqueue
  split <;> first | rfl | (dsimp only [opportunity, State.setAgenda]; split <;> rfl)

theorem moveBare_enablesTell (t : TrayId) (st : TrayState) (g : Nat) (c : Option FaultCause) {s : State}
    (h : s.enablesTell) : (moveBare t st g c s).enablesTell := by
  refine moveBare_keeps (P := State.enablesTell) t st g c (fun v hv => enablesTell_congr (s := v) rfl rfl hv)
    (fun v hv r => ?_) h
  exact enablesTell_congr (joinCollection_trays ..) (by rw [joinCollection_hold])
    (putTray_enablesTell t r (enablesTell_congr (leaveCollection_trays ..) (by rw [leaveCollection_hold]) hv))

/-- Every move keeps the enable latches true to the states (R3). -/
theorem Evolves.enablesTell {s u : State} (h : Evolves s u) (hs : s.enablesTell) : u.enablesTell := by
  induction h with
  | refl => exact hs
  | trans _ _ h h' => exact h' (h hs)
  | agenda | pace | entry | alarm | drawn | sorted | reported | judged | holdup | basis | due =>
    exact enablesTell_congr rfl rfl hs
  | trapped x s =>
    unfold trapFailure
    split <;> exact enablesTell_congr (s := s) rfl rfl hs
  | mark t r s hst _ _ =>
    intro n
    rw [setRecord_tray]
    split
    · rename_i e
      rw [e, hst]
      exact hs t
    · exact hs n
  | put t r s _ _ _ => exact putTray_enablesTell t r hs
  | moved t st g c s _ _ _ => exact moveBare_enablesTell t st g c hs
  | started t j code g s _ _ => exact enablesTell_congr rfl rfl (moveBare_enablesTell t .inrush g none hs)

/-- No move writes a valve latch or a leak latch. -/
theorem Evolves.valves {s u : State} (h : Evolves s u) :
    u.hold.closed = s.hold.closed ∧ u.hold.leakLatch = s.hold.leakLatch := by
  have move (t : TrayId) (st : TrayState) (g : Nat) (c : Option FaultCause) (s : State) :
      (moveBare t st g c s).hold.closed = s.hold.closed ∧ (moveBare t st g c s).hold.leakLatch = s.hold.leakLatch := by
    refine moveBare_keeps (P := fun u => u.hold.closed = s.hold.closed ∧ u.hold.leakLatch = s.hold.leakLatch) t st g c
      (fun v hv => hv) (fun v hv r => ?_) ⟨rfl, rfl⟩
    rw [joinCollection_hold]
    simp only [State.putTray, leaveCollection_hold]
    exact hv
  induction h with
  | trans _ _ h h' => exact ⟨h'.1.trans h.1, h'.2.trans h.2⟩
  | trapped x s =>
    unfold trapFailure
    split <;> exact ⟨rfl, rfl⟩
  | moved t st g c s _ _ _ => exact move t st g c s
  | started t j code g s _ _ => exact move t .inrush g none s
  | _ => exact ⟨rfl, rfl⟩

/-- A new entry keeps the ring and the cursors within 48 entries (R150, R151). -/
theorem journalise_bounded (k : Kind) (a : Option Subject) (v : Option Nat) (r : Option Reason) {s : State}
    (h : s.journalBounded) : (journalise k a v r s).journalBounded := by
  obtain ⟨h1, h2, h3⟩ := h
  have size : Config.journalSize = 48 := rfl
  have unread (p : PortRec) (hp : p.unread ≤ s.journal.entries.length) :
      (p.entryMade (!(decide (s.journal.entries.length < Config.journalSize)))).unread ≤
        (journalise k a v r s).journal.entries.length := by
    unfold PortRec.entryMade journalise Journal.push
    dsimp only
    by_cases hl : s.journal.entries.length < Config.journalSize
    · simp only [hl, decide_true, Bool.not_true, Bool.false_and, Bool.false_eq_true, if_false, if_true, List.length_append,
        List.length_cons, List.length_nil]
      omega
    · simp only [hl, decide_false, Bool.not_false, Bool.true_and, if_false, List.length_append, List.length_drop,
        List.length_cons, List.length_nil]
      split
      · show p.unread ≤ _
        omega
      · show min (p.unread + 1) Config.journalSize ≤ _
        omega
  refine ⟨?_, unread _ h2, unread _ h3⟩
  unfold journalise Journal.push
  dsimp only
  split <;> simp only [List.length_append, List.length_drop, List.length_cons, List.length_nil] <;> omega

theorem journalBounded_congr {s u : State} (hj : u.journal = s.journal) (ha : u.portA.unread = s.portA.unread)
    (hb : u.portB.unread = s.portB.unread) (h : s.journalBounded) : u.journalBounded := by
  unfold State.journalBounded
  rw [hj, ha, hb]
  exact h

theorem moveBare_bounded (t : TrayId) (st : TrayState) (g : Nat) (c : Option FaultCause) {s : State}
    (h : s.journalBounded) : (moveBare t st g c s).journalBounded := by
  have leave (v : State) (hv : v.journalBounded) : (leaveCollection t v).journalBounded := by
    unfold leaveCollection dequeue freeSlot
    split <;> first | exact hv | (dsimp only; split <;> exact hv)
  have join (v : State) (hv : v.journalBounded) : (joinCollection t st v).journalBounded := by
    unfold joinCollection enqueue
    split <;> first | exact hv | (dsimp only [opportunity, State.setAgenda]; split <;> exact hv)
  exact moveBare_keeps (P := State.journalBounded) t st g c (fun v hv => journalise_bounded _ _ _ _ hv)
    (fun v hv r => join _ (journalBounded_congr (s := leaveCollection t v) rfl rfl rfl (leave v hv))) h

/-- Every move keeps the ring and the cursors within 48 entries. -/
theorem Evolves.journalBounded {s u : State} (h : Evolves s u) (hs : s.journalBounded) : u.journalBounded := by
  induction h with
  | refl => exact hs
  | trans _ _ h h' => exact h' (h hs)
  | entry => exact journalise_bounded _ _ _ _ hs
  | trapped x s =>
    unfold trapFailure
    split <;> exact hs
  | moved t st g c s _ _ _ => exact moveBare_bounded t st g c hs
  | started t j code g s _ _ => exact journalBounded_congr rfl rfl rfl (moveBare_bounded t .inrush g none hs)
  | _ => exact journalBounded_congr rfl rfl rfl hs

end Sys2Proof.Machine
end

