-- ==== Sys2Proof/Laws/PerInstr.lean ====
section
/-! SUPPORT. The family Rows: what holds of every command as syntax. A command that a manager writes spells a payload of
exactly the length that the table of R163 defines for its command code, and no payload is longer than the 24 bytes that R134
allows. -/

namespace Sys2Proof.Laws.Rows

open Sys2Proof.Machine

/-- The payload of a request has the length that its command code defines, at most 24 bytes (R134, R163). -/
def Statement (i : Instr) : Prop :=
  ∀ r, requestOf i = some r → payloadLength r.code = some r.payload.length ∧ r.payload.length ≤ 24

theorem readStatus (p : Port) (tag part : Byte) : Statement (.readStatus p tag part) := by
  intro r h; cases h; exact ⟨rfl, Nat.le_of_ble_eq_true rfl⟩

theorem readTray (p : Port) (tag tray : Byte) : Statement (.readTray p tag tray) := by
  intro r h; cases h; exact ⟨rfl, Nat.le_of_ble_eq_true rfl⟩

theorem readStation (p : Port) (tag address : Byte) : Statement (.readStation p tag address) := by
  intro r h; cases h; exact ⟨rfl, Nat.le_of_ble_eq_true rfl⟩

theorem readZone (p : Port) (tag zone : Byte) : Statement (.readZone p tag zone) := by
  intro r h; cases h; exact ⟨rfl, Nat.le_of_ble_eq_true rfl⟩

theorem readPlan (p : Port) (tag part : Byte) : Statement (.readPlan p tag part) := by
  intro r h; cases h; exact ⟨rfl, Nat.le_of_ble_eq_true rfl⟩

theorem readSnapshot (p : Port) (tag part : Byte) : Statement (.readSnapshot p tag part) := by
  intro r h; cases h; exact ⟨rfl, Nat.le_of_ble_eq_true rfl⟩

theorem readJournal (p : Port) (tag : Byte) : Statement (.readJournal p tag) := by
  intro r h; cases h; exact ⟨rfl, Nat.le_of_ble_eq_true rfl⟩

theorem readAlerts (p : Port) (tag : Byte) : Statement (.readAlerts p tag) := by
  intro r h; cases h; exact ⟨rfl, Nat.le_of_ble_eq_true rfl⟩

theorem setAlerts (p : Port) (tag : Byte) (enable urgent : Half) : Statement (.setAlerts p tag enable urgent) := by
  intro r h; cases h; exact ⟨rfl, Nat.le_of_ble_eq_true rfl⟩

theorem ackAlerts (p : Port) (tag : Byte) (mask : Half) : Statement (.ackAlerts p tag mask) := by
  intro r h; cases h; exact ⟨rfl, Nat.le_of_ble_eq_true rfl⟩

theorem claimLease (p : Port) (tag : Byte) (term : Half) : Statement (.claimLease p tag term) := by
  intro r h; cases h; exact ⟨rfl, Nat.le_of_ble_eq_true rfl⟩

theorem renewLease (p : Port) (tag : Byte) : Statement (.renewLease p tag) := by
  intro r h; cases h; exact ⟨rfl, Nat.le_of_ble_eq_true rfl⟩

theorem dropLease (p : Port) (tag : Byte) : Statement (.dropLease p tag) := by
  intro r h; cases h; exact ⟨rfl, Nat.le_of_ble_eq_true rfl⟩

theorem grant (p : Port) (tag tray : Byte) (amount : Half) (rev park : Byte) :
    Statement (.grant p tag tray amount rev park) := by
  intro r h; cases h; exact ⟨rfl, Nat.le_of_ble_eq_true rfl⟩

theorem release (p : Port) (tag tray rev : Byte) : Statement (.release p tag tray rev) := by
  intro r h; cases h; exact ⟨rfl, Nat.le_of_ble_eq_true rfl⟩

theorem setTray (p : Port) (tag tray rev : Byte) (f : TrayFields) : Statement (.setTray p tag tray rev f) := by
  intro r h; cases h; exact ⟨rfl, Nat.le_of_ble_eq_true rfl⟩

theorem clearFault (p : Port) (tag tray rev : Byte) : Statement (.clearFault p tag tray rev) := by
  intro r h; cases h; exact ⟨rfl, Nat.le_of_ble_eq_true rfl⟩

theorem planOpen (p : Port) (tag rev : Byte) : Statement (.planOpen p tag rev) := by
  intro r h; cases h; exact ⟨rfl, Nat.le_of_ble_eq_true rfl⟩

theorem planPoint (p : Port) (tag position : Byte) : Statement (.planPoint p tag position) := by
  intro r h; cases h; exact ⟨rfl, Nat.le_of_ble_eq_true rfl⟩

theorem planPut (p : Port) (tag tray : Byte) : Statement (.planPut p tag tray) := by
  intro r h; cases h; exact ⟨rfl, Nat.le_of_ble_eq_true rfl⟩

theorem planLength (p : Port) (tag length : Byte) : Statement (.planLength p tag length) := by
  intro r h; cases h; exact ⟨rfl, Nat.le_of_ble_eq_true rfl⟩

theorem planCommit (p : Port) (tag : Byte) : Statement (.planCommit p tag) := by
  intro r h; cases h; exact ⟨rfl, Nat.le_of_ble_eq_true rfl⟩

theorem planAbort (p : Port) (tag : Byte) : Statement (.planAbort p tag) := by
  intro r h; cases h; exact ⟨rfl, Nat.le_of_ble_eq_true rfl⟩

theorem setShelf (p : Port) (tag redundancy autoRestart : Byte) :
    Statement (.setShelf p tag redundancy autoRestart) := by
  intro r h; cases h; exact ⟨rfl, Nat.le_of_ble_eq_true rfl⟩

theorem setLimits (p : Port) (tag : Byte) (f : LimitFields) : Statement (.setLimits p tag f) := by
  intro r h; cases h; exact ⟨rfl, Nat.le_of_ble_eq_true rfl⟩

theorem setTiming (p : Port) (tag : Byte) (f : TimingFields) : Statement (.setTiming p tag f) := by
  intro r h; cases h; exact ⟨rfl, Nat.le_of_ble_eq_true rfl⟩

theorem startRack (p : Port) (tag : Byte) : Statement (.startRack p tag) := by
  intro r h; cases h; exact ⟨rfl, Nat.le_of_ble_eq_true rfl⟩

theorem clearZone (p : Port) (tag zone : Byte) : Statement (.clearZone p tag zone) := by
  intro r h; cases h; exact ⟨rfl, Nat.le_of_ble_eq_true rfl⟩

theorem clearTrap (p : Port) (tag : Byte) : Statement (.clearTrap p tag) := by
  intro r h; cases h; exact ⟨rfl, Nat.le_of_ble_eq_true rfl⟩

theorem saveConfig (p : Port) (tag : Byte) : Statement (.saveConfig p tag) := by
  intro r h; cases h; exact ⟨rfl, Nat.le_of_ble_eq_true rfl⟩

theorem unknownRequest (p : Port) (bytes : List Byte) : Statement (.unknownRequest p bytes) := by
  intro r h; cases h

theorem writeRefusedExecuting (p : Port) : Statement (.writeRefusedExecuting p) := by
  intro r h; cases h

theorem storeWriteComplete : Statement .storeWriteComplete := by
  intro r h; cases h

theorem leaseLapsed (p : Port) : Statement (.leaseLapsed p) := by
  intro r h; cases h

theorem replyFrame (bytes : List Byte) : Statement (.replyFrame bytes) := by
  intro r h; cases h

theorem strayFrame (bytes : List Byte) : Statement (.strayFrame bytes) := by
  intro r h; cases h

theorem replyTimeout : Statement .replyTimeout := by
  intro r h; cases h

theorem paceExpiry : Statement .paceExpiry := by
  intro r h; cases h

theorem windowExpiry (slot : SlotId) : Statement (.windowExpiry slot) := by
  intro r h; cases h

theorem pfailAsserted : Statement .pfailAsserted := by
  intro r h; cases h

theorem pfailDeasserted : Statement .pfailDeasserted := by
  intro r h; cases h

theorem qualificationExpiry : Statement .qualificationExpiry := by
  intro r h; cases h

theorem stageTick : Statement .stageTick := by
  intro r h; cases h

theorem conversion (channel : ChannelId) (result : Option Half) : Statement (.conversion channel result) := by
  intro r h; cases h

theorem censusClose : Statement .censusClose := by
  intro r h; cases h

theorem vstbyRise : Statement .vstbyRise := by
  intro r h; cases h

theorem vcoreFall : Statement .vcoreFall := by
  intro r h; cases h

theorem vcoreRecovery : Statement .vcoreRecovery := by
  intro r h; cases h

theorem startDelayExpiry : Statement .startDelayExpiry := by
  intro r h; cases h

theorem resetNAsserted : Statement .resetNAsserted := by
  intro r h; cases h

theorem resetNDeasserted : Statement .resetNDeasserted := by
  intro r h; cases h

theorem vstbyFall : Statement .vstbyFall := by
  intro r h; cases h

end Sys2Proof.Laws.Rows
end

