-- ==== Sys2Proof/Laws/Ports.lean ====
section
/-! SUPPORT. What a port does with a request that it takes, and when the end of an event has nothing to do: what a proof about
a command cites instead of takeRequest, portTake and finish. -/

namespace Sys2Proof.Machine

/-! ### Taking a request -/

/-- A held core takes no request. -/
theorem portTake_held {s : State} (h : s.sup.held = true) (p : Port) (tag : Byte) (n : Bool) (body : State → State) :
    portTake p tag n body s = s := by simp [portTake, h]

/-- A port that is EXECUTING refuses the write. -/
theorem portTake_executing {s : State} {p : Port} (h : s.sup.held = false) (he : (s.port p).state = .executing) (tag : Byte)
    (n : Bool) (body : State → State) : portTake p tag n body s = raiseOverrun p s := by simp [portTake, h, he]

/-- A command that needs a lease is refused without one. -/
theorem portTake_noLease {s : State} {p : Port} (h : s.takes p) (hl : (s.port p).lease = none) (tag : Byte)
    (body : State → State) : portTake p tag true body s = respond p tag { status := .noLease, payload := [] } s := by
  obtain ⟨⟨h1, _⟩, h2⟩ := h
  simp [portTake, h1, h2, hl]

/-- A command that needs no lease runs its body at a port that takes requests. -/
theorem portTake_free {s : State} {p : Port} (h : s.takes p) (tag : Byte) (body : State → State) :
    portTake p tag false body s = body s := by
  obtain ⟨⟨h1, _⟩, h2⟩ := h
  simp [portTake, h1, h2]

/-- Every request runs its body at a port that takes requests and has a lease. -/
theorem portTake_leased {s : State} {p : Port} (h : s.leased p) (tag : Byte) (n : Bool) (body : State → State) :
    portTake p tag n body s = body s := by
  obtain ⟨⟨⟨h1, _⟩, h2⟩, h3⟩ := h
  simp only [portTake, h1, Bool.false_eq_true, if_false, beq_iff_eq, h2]
  cases hl : (s.port p).lease
  · simp [hl] at h3
  · simp

theorem takeRequest_held {s : State} (h : s.sup.held = true) (p : Port) (tag : Byte) (n : Bool)
    (body : State → State × Answer) : takeRequest p tag n body s = s := portTake_held h p tag n _

theorem takeRequest_executing {s : State} {p : Port} (h : s.sup.held = false) (he : (s.port p).state = .executing)
    (tag : Byte) (n : Bool) (body : State → State × Answer) : takeRequest p tag n body s = raiseOverrun p s :=
  portTake_executing h he tag n _

theorem takeRequest_noLease {s : State} {p : Port} (h : s.takes p) (hl : (s.port p).lease = none) (tag : Byte)
    (body : State → State × Answer) :
    takeRequest p tag true body s = respond p tag { status := .noLease, payload := [] } s :=
  portTake_noLease h hl tag _

theorem takeRequest_free {s : State} {p : Port} (h : s.takes p) (tag : Byte) (body : State → State × Answer) :
    takeRequest p tag false body s = respond p tag (body s).2 (body s).1 := portTake_free h tag _

theorem takeRequest_leased {s : State} {p : Port} (h : s.leased p) (tag : Byte) (n : Bool) (body : State → State × Answer) :
    takeRequest p tag n body s = respond p tag (body s).2 (body s).1 := portTake_leased h tag n _

/-! ### Reads that lock no tray -/

/-- A read of a part that passes its check, or of a tray already locked, changes nothing. -/
theorem checkReadIn_passes {s : State} {t : TrayId} (h : (s.tray t).failsCheck = false) (e : Option ZoneId) :
    checkReadIn e t s = s := by simp [checkReadIn, h]

theorem checkRead_passes {s : State} {t : TrayId} (h : (s.tray t).failsCheck = false) : checkRead t s = s :=
  checkReadIn_passes h none

theorem testOne_passes {s : State} {t : TrayId} (h : (s.tray t).failsCheck = false) (e : Option ZoneId) :
    testOne e t s = s := by simp [testOne, h]

/-- A pass over a list that leaves the state alone at each member leaves it alone. -/
theorem foldl_fixed {α : Type} {f : State → α → State} {s : State} (h : ∀ a, f s a = s) (l : List α) :
    l.foldl f s = s := by
  induction l with
  | nil => rfl
  | cons a l ih => rw [List.foldl_cons, h a, ih]

theorem testMembers_passes {s : State} (h : s.codesPass) (e : Option ZoneId) (m : TrayState → Bool) :
    testMembers e m s = s := by
  refine foldl_fixed (fun t => ?_) _
  rw [testOne_passes (h t), ite_self]

theorem readAll_passes {s : State} (h : s.codesPass) : readAll s = s := foldl_fixed (fun t => checkRead_passes (h t)) _

/-- A move of a tray while every code passes is the bare move, with no lock. -/
theorem move_passes {t : TrayId} {st : TrayState} {g : Nat} {c : Option FaultCause} {s : State}
    (h : (moveBare t st g c s).codesPass) : move t st g c s = moveBare t st g c s := by
  unfold move
  split
  · exact testMembers_passes h none _
  · rfl

/-! ### The end of an event -/

theorem setAgenda_setAgenda (a b : Agenda) (s : State) : (s.setAgenda a).setAgenda b = s.setAgenda b := rfl

theorem setAgenda_self (s : State) : s.setAgenda s.agenda = s := rfl

/-- With no pass allowed or an empty Park List the admission pass moves no tray. -/
theorem admissionIfAllowed_idle {s : State} (h : s.nothingToAdmit) : ∃ a, admissionIfAllowed s = s.setAgenda a := by
  unfold admissionIfAllowed
  rcases h with h | h | h
  · exact ⟨s.agenda, by simp [h, setAgenda_self]⟩
  · exact ⟨s.agenda, by simp [h, setAgenda_self]⟩
  · split
    · refine ⟨{ s.agenda with admission := false }, ?_⟩
      simp [admissionPass, h, admissionWalk]
    · exact ⟨s.agenda, rfl⟩

theorem regainTest_idle {s : State} (h : s.warmRegain = false) : regainTest s = s := by simp [regainTest, h]

theorem nothingToAdmit_setAgenda {s : State} (h : s.nothingToAdmit) (a : Agenda) : (s.setAgenda a).nothingToAdmit := h

/-- The end of a claim with nothing to admit and no regain to test changes only what is owed. -/
theorem endClaim_idle {s : State} (h : s.nothingToAdmit) (hw : s.warmRegain = false) :
    ∃ a, endClaim s = s.setAgenda a := by
  obtain ⟨b, hb⟩ := admissionIfAllowed_idle
    (nothingToAdmit_setAgenda h { s.agenda with admission := false, shortfall := false })
  have hr (a : Agenda) : regainTest (s.setAgenda a) = s.setAgenda a := regainTest_idle hw
  unfold endClaim
  by_cases hd : (s.agenda.admission && !s.agenda.shortfall) = true
  · simp only [hd, if_true, hb, setAgenda_setAgenda, hr]
    split
    · exact ⟨_, rfl⟩
    · exact ⟨_, rfl⟩
  · simp only [hd, Bool.false_eq_true, if_false, setAgenda_setAgenda, hr]
    split
    · exact ⟨_, rfl⟩
    · exact ⟨_, rfl⟩

/-- A start opportunity while starts wait starts nothing. -/
theorem offerStart_waits {s : State} (h : s.startsWait) : ∃ a, offerStart s = s.setAgenda a := by
  refine ⟨{ s.agenda with opportunity := false }, ?_⟩
  unfold offerStart
  dsimp only
  rcases h with h | h
  · simp [h]
  · cases hp : s.seq.paceTimer
    · simp [hp] at h
    · split
      · simp [gapStarts, hp]
      · rfl

theorem finishRounds_idle (n : Nat) {s : State} (hs : s.startsWait) (h : s.nothingToAdmit) (hw : s.warmRegain = false) :
    ∃ a, finishRounds n s = s.setAgenda a := by
  induction n generalizing s with
  | zero => exact ⟨s.agenda, rfl⟩
  | succ n ih =>
    obtain ⟨a, ha⟩ := endClaim_idle h hw
    obtain ⟨b, hb⟩ := offerStart_waits (s := s.setAgenda a) hs
    obtain ⟨c, hc⟩ := ih (s := s.setAgenda b) hs h hw
    unfold finishRounds
    simp only [ha, hb, setAgenda_setAgenda, hc]
    split
    · split
      · exact ⟨c, rfl⟩
      · exact ⟨b, rfl⟩
    · exact ⟨a, rfl⟩

/-- The end of an event at which starts wait, nothing is to be admitted and no regain is to be tested only clears what is
owed. -/
theorem finish_idle {s : State} (hs : s.startsWait) (h : s.nothingToAdmit) (hw : s.warmRegain = false) :
    finish s = s.setAgenda .none := by
  obtain ⟨a, ha⟩ := finishRounds_idle 33 hs h hw
  rw [finish, ha, setAgenda_setAgenda]

/-- The end of an event that owes nothing changes nothing. -/
theorem finish_none {s : State} (h : s.agenda = Agenda.none) : finish s = s := by
  have he : endClaim s = s := by
    unfold endClaim
    simp only [h, Agenda.none, Bool.false_and, Bool.false_eq_true, if_false]
    rw [if_neg (by simp)]
    exact (congrArg (fun a => s.setAgenda a) h).symm
  have hf : finishRounds 33 s = s := by
    unfold finishRounds
    simp only [he, h, Agenda.none, Bool.false_eq_true, if_false]
  rw [finish, hf, ← h]
  rfl

end Sys2Proof.Machine
end

