-- ==== Sys2Proof/Laws/Starts.lean ====
section
/-! SUPPORT. Starts, window ends, plan runs, the end of a claim and of an event, and the claims of replies and of GRANT and
RELEASE, each as a sequence of the moves of Evolves. -/

namespace Sys2Proof.Machine

open Evolves

/-! ### A read that leaves its tray unlocked -/

/-- A lock's later steps leave the lock in place. -/
theorem lockOne_locked (e : Option ZoneId) (t : TrayId) (s : State) : ((lockOne e t s).tray t).locked = true := by
  have h : Evolves (s.setRecord t { s.tray t with locked := true, frozen := (s.tray t).commitment }) (lockOne e t s) := by
    have h2 := Evolves.sorted (s.setRecord t { s.tray t with locked := true, frozen := (s.tray t).commitment })
    unfold lockOne
    refine .trans ?_ (.alarm ..)
    refine .trans ?_ (.entry ..)
    refine .trans ?_ (.trapped ..)
    split
    · have h3 := h2.trans (pickLeakZone_evolves e _)
      split
      · rename_i z s' heq
        rw [heq] at h3
        exact h3.trans (isolate_evolves ..)
      · rename_i s' heq
        rw [heq] at h3
        exact h3
    · exact h2
  exact h.locks (by rw [setRecord_tray, if_pos rfl])

/-- A read locks the tray whose part fails its check (R17, R18). -/
theorem checkRead_locks (t : TrayId) {s : State} (h : (s.tray t).failsCheck = true) :
    ((checkRead t s).tray t).locked = true := by
  have hl := lockOne_locked none t s
  unfold checkRead checkReadIn
  rw [if_pos h]
  dsimp only
  split
  · exact (testMembers_evolves ..).locks hl
  · split
    · exact (testMembers_evolves ..).locks hl
    · exact hl

/-- A read after which its tray is not locked has changed nothing. -/
theorem checkRead_unlocked {t : TrayId} {s : State} (h : ((checkRead t s).tray t).locked ≠ true) : checkRead t s = s := by
  have hf : ¬ (s.tray t).failsCheck = true := fun hf => h (checkRead_locks t hf)
  unfold checkRead checkReadIn
  rw [if_neg hf]

/-! ### Starts -/

theorem freeSlot?_free {s : State} {j : SlotId} (h : s.freeSlot? = some j) : s.seq.slots[j] = none := by
  have := List.find?_some h
  simpa using this

theorem startTray_evolves (t : TrayId) (j : SlotId) (s : State) (hq : (s.tray t).state = .queued)
    (hj : s.seq.slots[j] = none) : Evolves s (startTray t j s) := by
  unfold startTray
  refine .trans ?_ (.entry ..)
  refine .trans ?_ (.ite (.pace ..) (.refl _))
  exact .started t j _ _ s hq hj

theorem startFirst_evolves (l : List TrayId) (s : State) : Evolves s (startFirst l s).1 := by
  induction l generalizing s with
  | nil => exact .refl s
  | cons t ts ih =>
    unfold startFirst
    split
    · exact ih s
    · rename_i hq
      dsimp only
      split
      · exact (checkRead_evolves t s).trans (ih _)
      · rename_i hl
        rw [checkRead_unlocked hl]
        split
        · rename_i j hj
          refine startTray_evolves t j s ?_ (freeSlot?_free hj)
          simp only [Bool.or_eq_true, bne_iff_ne, not_or, ne_eq, not_not] at hq
          exact hq.1
        · exact .refl s

theorem gapStarts_evolves (n : Nat) (s : State) : Evolves s (gapStarts n s) := by
  induction n generalizing s with
  | zero => exact .refl s
  | succ n ih =>
    have h := startFirst_evolves s.queue s
    unfold gapStarts
    split
    · generalize startFirst s.queue s = x at h ⊢
      exact h.trans (.ite (ih _) (.refl _))
    · exact .refl s

theorem offerStart_evolves (s : State) : Evolves s (offerStart s) := by
  unfold offerStart
  exact (Evolves.agenda _ s).trans (.ite (gapStarts_evolves ..) (.refl _))

theorem cadenceStart_evolves (s : State) : Evolves s (cadenceStart s) := .ite (startFirst_evolves ..) (.refl s)

/-! ### The end of a claim and of an event -/

theorem endClaim_evolves (s : State) : Evolves s (endClaim s) := by
  have h : Evolves s (if (s.agenda.admission && !s.agenda.shortfall) = true then
      admissionIfAllowed (s.setAgenda { s.agenda with admission := false, shortfall := false })
      else s.setAgenda { s.agenda with admission := false, shortfall := false }) :=
    .ite ((Evolves.agenda _ s).trans (admissionIfAllowed_evolves _)) (.agenda _ s)
  unfold endClaim
  dsimp only
  generalize (if (s.agenda.admission && !s.agenda.shortfall) = true then
      admissionIfAllowed (s.setAgenda { s.agenda with admission := false, shortfall := false })
      else s.setAgenda { s.agenda with admission := false, shortfall := false }) = u at h ⊢
  exact h.trans (.ite ((Evolves.agenda _ u).trans (regainTest_evolves _)) (.refl u))

theorem finishRounds_evolves (n : Nat) (s : State) : Evolves s (finishRounds n s) := by
  induction n generalizing s with
  | zero => exact .refl s
  | succ n ih =>
    unfold finishRounds
    refine (endClaim_evolves s).trans (.ite ?_ (.refl _))
    exact (offerStart_evolves _).trans (.ite (ih _) (.refl _))

/-- The end of an event is a sequence of moves; nothing is owed after it. -/
theorem finish_evolves (s : State) : Evolves s (finish s) := (finishRounds_evolves 33 s).trans (.agenda ..)

/-! ### Window ends -/

/-- A new tries_left of at most start tries leaves a record as lawful as it was. -/
theorem triesLeft_evolves (t : TrayId) (n : Nat) (s : State) (hn : (s.tray t).lawful → n ≤ (s.tray t).cfg.tries) :
    Evolves s (s.setRecord t { s.tray t with triesLeft := n }) := by
  refine .mark t _ s rfl rfl ⟨rfl, rfl, id, fun h => ⟨?_, h.2.1, h.2.2.1, h.2.2.2.1, h.2.2.2.2.1, hn h⟩⟩
  simpa [Tray.commitFor] using h.1

theorem startSucceeded_evolves (t : TrayId) (s : State) : Evolves s (startSucceeded t s) := by
  unfold startSucceeded
  refine .trans ?_ (admissionDue_evolves _)
  refine .trans ?_ (.entry ..)
  refine .trans ?_ (.ite (.refl _) (triesLeft_evolves _ _ _ fun _ => Nat.le_refl _))
  exact (move_run_evolves ..).trans (checkRead_evolves ..)

theorem startFailed_evolves (t : TrayId) (s : State) : Evolves s (startFailed t s) := by
  unfold startFailed
  refine .trans ?_ (.alarm ..)
  refine .ite ?_ ?_
  · exact ((triesLeft_evolves t _ s fun h => Nat.le_trans (Nat.sub_le _ 1) h.2.2.2.2.2).trans (move_queued_evolves ..)).trans (.entry ..)
  · exact ((move_faulted_evolves t .start s).trans (.entry ..)).trans (admissionDue_evolves _)

theorem windowEnd_evolves (j : SlotId) (s : State) : Evolves s (windowEnd j s) := by
  unfold windowEnd
  split
  · exact .refl s
  · exact .ite (startSucceeded_evolves ..) (startFailed_evolves ..)

/-! ### Plan runs -/

theorem reportEntry_evolves (i : Nat) (s : State) : Evolves s (reportEntry i s) := by
  unfold reportEntry
  split
  · exact .refl s
  · rename_i e he
    refine .ite ?_ (.refl s)
    exact (((Evolves.reported i e s he).trans (.trapped ..)).trans (.entry ..)).trans (.alarm ..)

theorem reportEntries_evolves (s : State) : Evolves s (reportEntries s) :=
  .foldl (fun s i => reportEntry_evolves i s) _ s

theorem queueOrPark_evolves (t : TrayId) (g : Nat) (s : State) : Evolves s (queueOrPark t g s).1 := by
  have hq := move_queued_evolves t g s
  have hp := move_parked_evolves t g s
  unfold queueOrPark
  generalize move t .queued g none s = u at hq ⊢
  generalize move t .parked g none s = v at hp ⊢
  split <;> assumption

theorem planRunEntry_evolves (automatic : Bool) (s : State) (n : RunCounts) (i : Nat) :
    Evolves s (planRunEntry automatic (s, n) i).1 := by
  unfold planRunEntry
  dsimp only
  split
  · exact .refl s
  · rename_i e he
    split
    · exact (reportEntry_evolves i s).trans (.entry ..)
    · split
      · exact .entry ..
      · split
        · exact (checkRead_evolves ..).trans (.entry ..)
        · have h := (checkRead_evolves e.tray s).trans
            (queueOrPark_evolves e.tray ((checkRead e.tray s).cfg e.tray).standing _)
          generalize queueOrPark e.tray ((checkRead e.tray s).cfg e.tray).standing (checkRead e.tray s) = x at h ⊢
          obtain ⟨u, b⟩ := x
          cases b <;> exact h

theorem planRun_evolves (automatic : Bool) (s : State) : Evolves s (planRun automatic s).1 := by
  have h := Evolves.foldlPair (planRunEntry_evolves automatic) (List.range s.seq.plan.length) s
    { queued := 0, parked := 0, skipped := 0 }
  unfold planRun
  generalize (List.range s.seq.plan.length).foldl (planRunEntry automatic)
    (s, { queued := 0, parked := 0, skipped := 0 }) = x at h ⊢
  exact h.trans (.entry ..)

theorem automaticRun_evolves (s : State) : Evolves s (automaticRun s) := by
  unfold automaticRun
  refine .ite (.ite ?_ (.due ..)) (.refl s)
  exact .trans (.due ..) (.ite (planRun_evolves ..) (.refl _))

/-! ### The claims of replies -/

theorem holdLifted_evolves (t : TrayId) (s : State) : Evolves s (holdLifted t s) := by
  unfold holdLifted
  exact (opportunity_evolves s).trans (.ite (admissionDue_evolves _) (.refl _))

theorem faultReport_evolves (t : TrayId) (polled : TrayState) (s : State) : Evolves s (faultReport t polled s) := by
  unfold faultReport
  refine .ite (.entry ..) ?_
  exact (((move_faulted_evolves t .reported s).trans (.entry ..)).trans (.alarm ..)).trans (admissionDue_evolves _)

theorem clearMarks_evolves (t : TrayId) (d : Option Nat) (s : State) : Evolves s (clearMarks t d s) :=
  (setOverCap_evolves t false d s (by simp)).trans (setDeferred_evolves t false _ (by simp))

theorem setOverCap_state (t : TrayId) (v : Bool) (d : Option Nat) (s : State) :
    ((setOverCap t v d s).tray t).state = (s.tray t).state := by
  unfold setOverCap
  split
  · rfl
  · show ((s.setRecord t { s.tray t with overCap := v }).tray t).state = _
    rw [setRecord_tray, if_pos rfl]

theorem resizeRequest_evolves (t : TrayId) (g : Nat) (s : State) (h : (s.tray t).state.keepsMarks = true) :
    Evolves s (resizeRequest t g s) := by
  unfold resizeRequest
  refine .ite (setDeferred_evolves t false s (by simp)) (.ite ?_ (setDeferred_evolves t true s fun _ => h))
  exact ((resizeGrant_evolves t g true s (Or.inl h)).trans (.entry ..)).trans (.ite (admissionDue_evolves _) (.refl _))

theorem selfRequest_evolves (t : TrayId) (polled : TrayState) (demand : Nat) (s : State)
    (h : polled.keepsMarks = true) : Evolves s (selfRequest t polled demand s) := by
  unfold selfRequest
  split
  · exact .refl s
  · rename_i hp
    have hst : (s.tray t).state = polled := by simpa using hp
    dsimp only
    split
    · exact (checkRead_evolves t s).trans (clearMarks_evolves ..)
    · rename_i hl
      simp only [Bool.or_eq_true, not_or] at hl
      rw [checkRead_unlocked hl.1.1]
      have hk : (s.tray t).state.keepsMarks = true := hst ▸ h
      have hk' (v : Bool) (d : Option Nat) : ((setOverCap t v d s).tray t).state.keepsMarks = true := by
        rw [setOverCap_state]
        exact hk
      refine (setOverCap_evolves t (decide ((s.tray t).cfg.cap < demand)) (some demand) s fun _ => hk).trans ?_
      refine .ite (setDeferred_evolves _ _ _ (by simp)) (.ite (resizeRequest_evolves _ _ _ (hk' ..)) ?_)
      exact setDeferred_evolves _ _ _ fun _ => hk' ..

theorem selfStart_evolves (t : TrayId) (demand : Nat) (s : State) : Evolves s (selfStart t demand s) := by
  unfold selfStart
  split
  · exact .refl s
  · dsimp only
    split
    · exact checkRead_evolves t s
    · exact ((checkRead_evolves t s).trans (queueOrPark_evolves ..)).trans (.entry ..)

theorem powerGoodReport_evolves (window : Option (SlotId × Nat)) (pg : Bool) (s : State) :
    Evolves s (powerGoodReport window pg s) := by
  unfold powerGoodReport
  match window with
  | none => exact .refl s
  | some (j, start) =>
    dsimp only
    split
    · exact .refl s
    · rename_i w hw
      refine .ite (.refl s) ?_
      exact .trans (.judged j w _ s hw) (.ite (windowEnd_evolves ..) (.refl _))

/-! ### GRANT and RELEASE -/

theorem grantEntry_evolves (t : TrayId) (g : Nat) (why : Reason) (s : State) : Evolves s (grantEntry t g why s) :=
  .entry ..

theorem grantIdle_evolves (t : TrayId) (g : Nat) (park : Bool) (s : State) : Evolves s (grantIdle t g park s).1 := by
  have h := checkRead_evolves t s
  unfold grantIdle
  split
  · exact .refl s
  · dsimp only
    split
    · exact h
    · split
      · exact (h.trans (move_queued_evolves ..)).trans (grantEntry_evolves ..)
      · split
        · exact (h.trans (move_parked_evolves ..)).trans (grantEntry_evolves ..)
        · exact h

theorem grantResize_evolves (t : TrayId) (g : Nat) (s : State)
    (h : (s.tray t).state.keepsMarks = true ∨ (s.tray t).state = .parked) : Evolves s (grantResize t g s) := by
  unfold grantResize
  exact ((resizeGrant_evolves t g false s h).trans (grantEntry_evolves ..)).trans (.ite (admissionDue_evolves _) (.refl _))

theorem grantActive_evolves (t : TrayId) (g : Nat) (s : State) (h : (s.tray t).state.keepsMarks = true) :
    Evolves s (grantActive t g s).1 := by
  unfold grantActive
  split
  · exact clearAdopted_evolves t s
  · split
    · exact .refl s
    · by_cases hr : (s.tray t).state = .run
      · dsimp only
        rw [if_pos hr]
        split
        · exact .refl s
        · split
          · exact .refl s
          · exact grantResize_evolves t g s (Or.inl h)
      · dsimp only
        rw [if_neg hr]
        split
        · exact checkRead_evolves t s
        · rename_i hl
          rw [checkRead_unlocked hl]
          split
          · exact .refl s
          · exact grantResize_evolves t g s (Or.inl h)

theorem grantTaken_evolves (t : TrayId) (g : Nat) (park : Bool) (s : State) : Evolves s (grantTaken t g park s).1 := by
  unfold grantTaken
  split
  · exact grantIdle_evolves ..
  · rename_i h
    exact grantActive_evolves t g s (by rw [h]; rfl)
  · rename_i h
    exact grantActive_evolves t g s (by rw [h]; rfl)
  · rename_i h
    exact grantActive_evolves t g s (by rw [h]; rfl)
  · rename_i h
    exact ((resizeGrant_evolves t g false s (Or.inr h)).trans (grantEntry_evolves ..)).trans (admissionDue_evolves _)
  · exact .refl s
  · exact .refl s

theorem releaseTaken_evolves (t : TrayId) (s : State) : Evolves s (releaseTaken t s) := by
  unfold releaseTaken
  exact ((move_toIdle_evolves t s).trans (.entry ..)).trans (admissionDue_evolves _)

end Sys2Proof.Machine
end

