-- ==== Sys2Proof/Tests/Slice0.lean ====
section
/-! SUPPORT. Tests: ill-formed commands, the two checks and the frames on written-out bytes, steps of the worked sequences of
chapter 11, and for every statement with hypotheses a state and operands that meet them, one theorem per statement. -/

namespace Sys2Proof.Tests

set_option Elab.async false

open Sys2Proof.Machine

/-! ### Well-formedness -/

/-- The bytes of CLEAR_TRAP with tag 9. -/
def clearTrapBytes : List Byte := [0x3A, 9, 0, crc8 [0x3A, 9, 0]]

theorem test_emptyWriteIsIllFormed : (Instr.unknownRequest .a []).wellFormed = false := by decide +kernel
theorem test_goodFrameIsNoUnknownRequest : (Instr.unknownRequest .a clearTrapBytes).wellFormed = false := by
  decide +kernel
theorem test_badFrameIsAnUnknownRequest : (Instr.unknownRequest .a [0x3A, 9, 0, 1]).wellFormed = true := by decide +kernel
theorem test_cutReplyIsIllFormed : (Instr.replyFrame [32, 0xA1, 3, 0]).wellFormed = false := by decide +kernel
theorem test_longReplyIsIllFormed : (Instr.replyFrame [32, 0xA1, 3, 0, 0, 1, 2, 3]).wellFormed = false := by decide +kernel
theorem test_emptyStrayFrameIsIllFormed : (Instr.strayFrame []).wellFormed = false := by decide
theorem test_leakCodeAboveRangeIsIllFormed : (Instr.conversion 1 (some 1024)).wellFormed = false := by decide
theorem test_busCodeIsWellFormed : (Instr.conversion 0 (some 65535)).wellFormed = true := by decide

/-! ### The checks and the frames -/

/-- The CRC-8 of the digits 1 to 9 in ASCII is 0xF4, and their CRC-16 is 0x29B1: the usual check values of the two
generators of R163 and R164 with their initial values. -/
theorem test_crcCheckValues :
    crc8 [0x31, 0x32, 0x33, 0x34, 0x35, 0x36, 0x37, 0x38, 0x39] = 0xF4 ∧
    crc16 [0x31, 0x32, 0x33, 0x34, 0x35, 0x36, 0x37, 0x38, 0x39] = 0x29B1 := by decide +kernel

theorem test_rectifierPollFrame :
    (State.reset.pollFor 32).frame = [0x20, 0x51, 0, (crc16 [0x20, 0x51, 0]).extractLsb' 8 8,
      (crc16 [0x20, 0x51, 0]).extractLsb' 0 8] := by decide +kernel

theorem test_requestBytesParse :
    parseRequest .a clearTrapBytes = .command (.clearTrap .a 9) ∧
    parseRequest .b [0x20, 7, 5, 3, 0x2C, 1, 4, 1, crc8 [0x20, 7, 5, 3, 0x2C, 1, 4, 1]] =
      .command (.grant .b 7 3 300 4 1) := by decide +kernel

theorem test_idlePortReadsNoResponse :
    PortRec.fresh.readBytes 6 = [2, 0, 0, crc8 [2, 0, 0], 0xFF, 0xFF] := by decide +kernel

/-! ### States for the tests -/

/-- A configuration part with every power field set. -/
def part : TrayConfig :=
  { TrayConfig.default with inrush := 100, standing := 50, cap := 200, tries := 2, selfRequest := true }

/-- A record of that part in a state with a grant. -/
def record (st : TrayState) (g : Nat) : Tray :=
  { Tray.fresh part .matching with state := st, grant := g, commitment := (Tray.fresh part .matching).commitFor st g }

/-- NORMAL and SETTLED with 1000 power counts of headroom, a lease on port A, and the pace timer running. -/
def rack : State :=
  { State.reset with
    hup := { State.reset.hup with state := .normal, cold := false, qualTimer := none }
    acct := { State.reset.acct with shelf := 1000, battery := 500, usable := 1000 }
    portA := { PortRec.fresh with state := .ready, lease := some (Lease.full 600) }
    seq := { State.reset.seq with paceTimer := some 5 } }

/-- The rack with the part written to tray 3. -/
def idle : State := rack.setRecord 3 (record .idle 0)

/-- The rack with tray 3 in RUN. -/
def run : State := rack.claimed 3 (record .run 50)

/-- The rack with tray 3 QUEUED, its station PRESENT. -/
def queued : State := { rack.claimed 3 (record .queued 50) with queue := [3] }.setStation 3
  { Station.fresh with presence := .present }

/-- The rack with tray 3 in INRUSH in slot 0. -/
def inrush (report : Report) : State :=
  (rack.claimed 3 (record .inrush 50)).setSlot 0
    (some { tray := 3, window := 0, length := 500, report := report, remaining := 7, start := 4 })

/-- The rack with tray 3 PARKED. -/
def parked : State := { rack.claimed 3 (record .parked 50) with park := [3] }

/-- The rack with tray 3 in a state that holds no collection. -/
def plain (st : TrayState) : State :=
  rack.claimed 3 { record st 0 with faultCause := if st = .faulted then some .start else none }

/-- A state with tray 3's lock set. -/
def locked (s : State) : State := s.setRecord 3 { s.tray 3 with locked := true, frozen := (s.tray 3).commitment }

/-- The rack with another holdup state and cold flag. -/
def holdup (st : HoldupState) (cold : Bool) (s : State) : State := s.setHup { s.hup with state := st, cold := cold }

/-- An episode in HOLDUP with the timer at the given value. -/
def episode (timer : Int) (s : State) : State :=
  { s.setHup { s.hup with
      state := .holdup, cold := false, stage := some .one, timer := timer, total := 20, bound1 := 10, bound2 := 5
      stageTick := some 0, episodes := 1 } with
    acct := { s.acct with usable := s.acct.battery }, sup := { s.sup with pfailAsserted := true } }

/-- The part held with both supplies up and the start delay running. -/
def held (c : ResetCause) : State :=
  { State.reset with
    hold := { Hold.fresh with cause := c }, sup := { State.reset.sup with held := true, startDelay := some 0 } }

/-- The poll of tray 3 with a state and a grant. -/
def poll3 (st : TrayState) (g : Nat) : Poll :=
  { address := 3, sent := some (st, g), onBattery := false, window := none }

/-- A state with a poll outstanding. -/
def polled (q : Poll) (s : State) : State := { s with link := { s.link with outstanding := some q, replyTimer := some 2 } }

/-- A tray 3 reply frame. -/
def reply3 (status : Byte) (demand : Nat) : List Byte := withCrc16 ([3, 0xA0, status] ++ nat2 demand)

/-- The rack with tray 3 in RUN in zone 1, whose confirm count the next wet census completes. -/
def leaking : State :=
  let s := rack.claimed 3 { record .run 50 with cfg := { part with zone := some 1 } }
  let s := s.setZone 1 { state := .suspect, wetCount := 2, lastClass := some .wet, enabled := true, openAsLeak := false }
  let wet : Channel := { minimum := some 300, maximum := some 300, samples := 1, overranges := 0 }
  { s with sense := { s.sense with filling := s.sense.filling.set 2 wet } }

/-- A staging held by port A with the given positions first. -/
def staged (qs : List StagePos) (s : State) : State :=
  { s with seq := { s.seq with staging :=
    { positions := Vector.ofFn fun i : Fin 32 => qs.getD i.val { tray := none, bad := false }
      length := qs.length, pointer := 31, holder := some .a } } }

/-- A staging position that holds a tray. -/
def pos (t : TrayId) : StagePos := { tray := some t, bad := false }

/-- The plan of tray 3 alone. -/
def planned (s : State) : State := s.setPlan [{ tray := 3, code := .matching, reported := false }]

/-- A plan whose entries name trays 3 and 4 and fail their check, the first already reported. -/
def failingPlan (s : State) : State :=
  s.setPlan [{ tray := 3, code := .failing, reported := true }, { tray := 4, code := .failing, reported := false }]

/-- A state in which tray 3's station is PRESENT. -/
def present3 (s : State) : State := s.setStation 3 { Station.fresh with presence := .present }

/-- The rack with the BUS readings of the filling bank and the low and high conditions. -/
def bus (minimum maximum : Nat) (low high : Bool) : State :=
  { rack with sense := { rack.sense with
    low := low, high := high
    filling := rack.sense.filling.set 0
      { minimum := some minimum, maximum := some maximum, samples := 1, overranges := 0 } } }

/-- Fields of SET_TRAY in range, with the given zone byte and inrush allowance. -/
def fields (zone : Byte) (inrush : Half) : TrayFields :=
  { cls := 3, zone := zone, inrush := inrush, standing := 4095, cap := 4095, window := 3, tries := 7, flags := 7 }

/-- Fields of SET_LIMITS. -/
def limits (wet : Half) : LimitFields :=
  { wet := wet, openFloor := 0, confirm := 15, enabled := 0xFF, openAsLeak := 1, warnLimit := 4600, overLimit := 4601
    cutoff := 65535 }

/-- Fields of SET_TIMING. -/
def timing (mode : Byte) (k : Byte) : TimingFields :=
  { mode := mode, interval := 2000, k := k, w0 := 10, w1 := 60000, w2 := 10, s1 := 32767, s2 := 0, s3 := 0
    qualification := 100, reply := 20, census := 20 }

/-- The state that a step answers. -/
def after (o : Host.Outcome State Fault Refusal) : Option State :=
  match o with
  | .next t => some t
  | _ => none

/-! ### Steps of the part -/

/-- The end of a POWER_ON with no stored image is State.reset (R153). -/
theorem test_powerOnReachesReset :
    after (step { held .powerOn with pending := [.startDelayExpiry] }) = some State.reset := by decide +kernel

/-- The first step of an empty queue after reset lets a millisecond pass. -/
theorem test_idleStep :
    (after (step State.reset)).map (fun t => (t.link.replyTimer, t.sense.timer, t.hup.qualTimer)) =
      some (some 3, some 99, some 2999) := by decide +kernel

/-- A reply timer that has run out is taken as its expiry, and address 33 is polled next (R107). -/
theorem test_idleStepTakesAnExpiry :
    (after (step { State.reset with link := { State.reset.link with replyTimer := some 0 } })).map
      (fun t => ((t.station 32).misses, t.link.outstanding.map Poll.address)) = some (1, some 33) := by decide +kernel

theorem test_coreIsTheMachine : Sys2Proof.core.reset = State.reset := rfl

theorem test_noWordSpellsACommand : decodeTableWord 8 1 = none ∧ State.reset.withFetchWord 8 1 = State.reset :=
  ⟨rfl, rfl⟩

/-- GRANT of 300 to an IDLE tray with an inrush allowance of 100 queues it, and in GAP with the pace timer idle starts it within
the same request (R37, R64). -/
theorem test_grantStarts :
    (after (exec (.grant .a 7 3 300 0 0) ((polled (poll3 .idle 0) idle).setStation 3
        { Station.fresh with presence := .present } |>.setPace none))).map
      (fun t => ((t.tray 3).state, (t.tray 3).revision, t.acct.committed, t.hold.enable[(3 : TrayId)])) =
      some (.inrush, 2, 300, true) := by decide +kernel

/-- A leak of a zone isolates its RUN tray at the close (R99). -/
theorem test_leakIsolates :
    (after (exec .censusClose leaking)).map
      (fun t => ((t.tray 3).state, (t.zone 1).state, t.hold.closed[(1 : ZoneId)], t.acct.committed)) =
      some (.isolated, .leak, true, 0) := by decide +kernel

/-- A GRANT of the present grant clears the adopted mark and keeps the revision and the deferred mark (R2, R38). -/
theorem test_equalGrantClearsAdopted :
    (after (exec (.grant .a 7 3 50 0 0) (rack.claimed 3 { record .run 50 with adopted := true, deferred := true }))).map
      (fun t => ((t.tray 3).adopted, (t.tray 3).deferred, (t.tray 3).revision, t.journal.next)) =
      some (false, true, 0, 0) := by decide +kernel

/-- A locked tray's mark in the reporting set is no zone's (R21, R104): byte 14 of the payload, after the record, the settings and
the published maximum. -/
theorem test_lockedMarkIsNoZones :
    let s := rack.claimed 3 { record .run 50 with cfg := { part with zone := some 1 } }
    let s := { s with leak := { s.leak with reporting := s.leak.reporting.set 3 true } }
    (s.zonePayload 1)[14]? = some 1 ∧ (s.zonePayload 2)[14]? = some 0 ∧ ((locked s).zonePayload 1)[14]? = some 0 := by
  decide +kernel

/-- Tray 31 PARKED and its station found by the last reply of a round at whose end an automatic run of tray 3 is taken: the run
takes the headroom, and the pass for the lifted hold comes at the end of the event and finds none (R11, R61, R107). -/
theorem test_liftedHoldWaitsForTheRoundEnd :
    let s := present3 (planned idle)
    let s := { (s.claimed 31 (record .parked 50)) with
      park := [31], acct := { s.acct with usable := 100, autoRestart := true } }
    let s := { s.setDue true true with portA := { s.portA with lease := some (Lease.full 9) } }
    let s := polled { address := 31, sent := some (.parked, 50), onBattery := false, window := none } s
    (after (exec (.replyFrame (withCrc16 ([31, 0xA0, 0] ++ nat2 0))) s)).map
      (fun t => ((t.tray 3).state, (t.tray 31).state, t.held 31, t.link.rounds)) =
      some (.queued, .parked, false, 1) := by decide +kernel

theorem test_portCodes :
    (portAddress .a, portAddress .b) = (0x4A, 0x4B) ∧
      [PortState.idle, .executing, .ready].map PortState.code = [0, 1, 2] := by decide

/-! ### What the statements assume is met -/

theorem test_frameCommands :
    (Instr.grant .a 1 3 300 0 1).wellFormed = true ∧ suppliesOrResets (.grant .a 1 3 300 0 1) = false ∧
      (after (exec (.grant .a 1 3 300 0 1) idle)).isSome = true ∧ sender (.grant .a 1 3 300 0 1) ≠ some .b := by
  decide +kernel

theorem test_executingPortExists :
    let s := rack.setPort .b { rack.portB with state := .executing, execTag := some 5 }
    s.sup.held = false ∧ (s.port .b).state = .executing ∧ (requestOf (.planAbort .b 1)).map Request.port = some .b := by
  decide +kernel

theorem test_noLeaseExists :
    (requestOf (.clearTrap .b 9)).isSome ∧ needsLease (.clearTrap .b 9) = true ∧ rack.takes .b ∧
      (rack.port .b).lease = none := by decide +kernel

/-- A write too short, one too long, one with a bad CRC-8, one that names no command, and one whose payload is too long. -/
theorem test_badWritesExist :
    let unknown : List Byte := [0x55, 5, 0, crc8 [0x55, 5, 0]]
    let long : List Byte := [0x07, 5, 1, 9, crc8 [0x07, 5, 1, 9]]
    rack.takes .a ∧ frameGood [0x07, 5, 0] = false ∧ frameGood (List.replicate 29 0) = false ∧
      frameGood [0x07, 5, 0, 1] = false ∧ frameGood unknown = true ∧ payloadLength 0x55 = none ∧
      frameGood long = true ∧ payloadLength 0x07 = some 0 := by decide +kernel

theorem test_readOperandsAtTheirEnds :
    rack.takes .a ∧ rack.codesPass ∧ (3 : Byte).toNat ≤ 3 ∧ 3 < (4 : Byte).toNat ∧ stationOf 41 = some 41 ∧
      41 < (42 : Byte).toNat ∧ zoneOf 7 = some 7 ∧ 7 < (8 : Byte).toNat ∧ (2 : Byte).toNat ≤ 2 ∧ 2 < (3 : Byte).toNat := by
  decide +kernel

theorem test_readTrayOperands :
    rack.takes .a ∧ trayOf 31 = some 31 ∧ (rack.tray 31).failsCheck = false ∧ 31 < (32 : Byte).toNat := by decide +kernel

theorem test_failingTrayExists :
    let s := idle.setRecord 3 { record .idle 0 with code := .failing }
    s.takes .a ∧ trayOf 3 = some 3 ∧ (s.tray 3).code = .failing ∧ (s.tray 3).locked = false ∧ s.leakZones = [] ∧
      s.trap.latched = none := by decide +kernel

theorem test_readPlanOperands :
    (planned rack).takes .b ∧ (planned rack).seq.staging.holder ≠ some .b ∧ 1 < (2 : Byte).toNat := by decide +kernel

/-- The first report of a failing entry, and none for an entry reported before (R20). -/
theorem test_reportStates :
    (failingPlan rack).takes .b ∧ (failingPlan rack).unreported = [1] ∧ (planned rack).unreported = [] ∧
      (failingPlan rack).seq.plan.length ≤ 32 ∧
      (after (exec (.readPlan .b 1 0) (failingPlan rack))).map (fun t => (t.trap.latched, t.journal.next, t.unreported)) =
        some (some (.plan 1), 1, []) := by decide +kernel

/-- A ring of 48 entries with port A caught up and port B at the oldest. -/
def fullRing : State :=
  { rack with
    journal := { entries := List.replicate 48 { seq := 0, census := 0, kind := .lease, subject := none, value := none
                                                reason := none }, next := 48 }
    portB := { rack.portB with unread := 48 } }

theorem test_journalStates :
    rack.takes .a ∧ rack.journalBounded ∧ fullRing.takes .b ∧ fullRing.journalBounded ∧
      fullRing.journal.entries.length = 48 ∧ (fullRing.port .a).unread < 48 ∧ (fullRing.port .b).unread = 48 := by
  decide +kernel

theorem test_alertStates : rack.takes .a ∧ rack.takes .b := by decide +kernel

theorem test_leaseStates :
    rack.takes .a ∧ (rack.port .a).lease = some (Lease.full 600) ∧ rack.takes .b ∧ (rack.port .b).lease = none ∧
      (601 : Half).toNat > 600 ∧ (600 : Half).toNat ≤ 600 ∧ 1 ≤ (1 : Half).toNat := by decide +kernel

theorem test_lapseStates :
    rack.sup.held = false ∧ (rack.port .b).lease = none ∧ (rack.port .a).lease.isSome = true := by decide +kernel

theorem test_grantCheckStates :
    rack.leased .a ∧ 31 < (32 : Byte).toNat ∧ grantCheck 3 0 0 0 idle = some .range ∧
      grantCheck 3 4096 0 0 idle = some .range ∧ grantCheck 3 1 0 2 idle = some .range ∧
      grantCheck 3 1 1 0 idle = some .stale ∧ grantCheck 3 1 0 0 (locked idle) = some .locked ∧
      grantCheck 3 1 0 0 (plain .isolated) = some .state ∧
      grantCheck 3 51 0 0 { run with acct := { run.acct with mode := .recovering } } = some .recovering := by
  decide +kernel

theorem test_grantIdleStates :
    idle.leased .a ∧ trayOf 3 = some 3 ∧ grantCheck 3 1000 0 1 idle = none ∧ (idle.tray 3).state = .idle ∧
      (idle.tray 3).overCap = false ∧ idle.codesPass ∧ idle.startsWait ∧ idle.isNormal = true ∧
      max (idle.cfg 3).inrush 1000 ≤ idle.headroom ∧ grantCheck 3 1001 0 0 idle = none ∧
      idle.headroom < max (idle.cfg 3).inrush 1001 ∧ (holdup .dark false idle).leased .a ∧
      (holdup .dark false idle).isNormal = false := by decide +kernel

theorem test_grantResizeStates :
    run.leased .a ∧ run.quiet ∧ grantCheck 3 1000 0 0 run = none ∧ (run.tray 3).state = .run ∧
      (run.tray 3).grant < 1000 ∧ 1000 - (run.tray 3).commitment ≤ run.headroom ∧
      run.headroom < 1001 - (run.tray 3).commitment ∧ queued.quiet ∧ (queued.tray 3).state = .queued ∧
      (inrush .good).quiet ∧ (holdup .holdup false run).quiet ∧ (holdup .holdup false run).isNormal = false ∧
      grantCheck 3 50 0 0 run = none ∧ (run.tray 3).grant = 50 := by decide +kernel

theorem test_grantParkedStates :
    let free := parked.setStation 3 { Station.fresh with presence := .present }
    parked.leased .a ∧ parked.warmRegain = false ∧ grantCheck 3 1000 0 0 parked = none ∧ (parked.tray 3).state = .parked ∧
      parked.park = [3] ∧ parked.held 3 = true ∧ (holdup .dark false parked).isNormal = false ∧
      (holdup .dark false parked).warmRegain = false ∧ free.leased .a ∧ free.isNormal = true ∧ free.isSettled = true ∧
      free.park = [3] ∧ free.held 3 = false ∧ free.codesPass ∧ free.startsWait ∧ (free.tray 3).lawful ∧
      max (free.cfg 3).inrush 1000 ≤ free.headroom := by decide +kernel

theorem test_releaseStates :
    run.leased .a ∧ run.quiet ∧ queued.quiet ∧ (inrush .none).quiet ∧ (holdup .holdup false parked).quiet ∧
      (locked run).leased .a ∧ (plain .faulted).leased .a := by decide +kernel

theorem test_clearFaultStates :
    (plain .faulted).leased .a ∧ trayOf 3 = some 3 ∧ ((plain .faulted).tray 3).code = .matching ∧
      ((plain .faulted).tray 3).lawful := by decide +kernel

theorem test_setTrayCheckStates :
    TrayFields.config { fields 8 0 with cls := 3 } = none ∧ TrayFields.config { fields 0x0F 0 with flags := 8 } = none ∧
      (TrayFields.config (fields 0 0)).map TrayConfig.zone = some (some 0) ∧ run.leased .a ∧
      (run.tray 3).failsCheck = false ∧ (run.tray 3).locked = false ∧ (queued.tray 3).state = .queued ∧
      (TrayFields.config (fields 0x0F 4095)).map TrayConfig.inrush = some 4095 ∧
      queued.headroom < 4095 - (queued.tray 3).commitment := by decide +kernel

theorem test_setTrayIdleStates :
    idle.leased .a ∧ (TrayFields.config (fields 7 4095)).isSome ∧ (idle.tray 3).revision = 0 ∧
      (idle.tray 3).code = .matching ∧ (idle.tray 3).locked = false ∧ (idle.tray 3).state = .idle ∧
      (idle.tray 3).lawful := by decide +kernel

/-- Fields that keep zone NONE and turn every flag off. -/
def keepZone (cls : Byte) (inrush : Half) : TrayFields := { fields 0x0F inrush with cls := cls, flags := 0 }

/-- Accepted forms in INRUSH (a rise, and a fall with nothing to admit), QUEUED, RUN, FAULTED and ISOLATED. -/
theorem test_setTrayUnlockedStates :
    (inrush .none).leased .a ∧ (inrush .none).codesPass ∧ ((inrush .none).tray 3).lawful ∧
      (TrayFields.config (keepZone 3 150)).map (fun c => (c.zone, c.inrush)) = some (none, 150) ∧
      ((inrush .none).cfg 3).zone = none ∧ ((inrush .none).tray 3).commitment = 100 ∧ (inrush .none).isSettled = true ∧
      50 ≤ (inrush .none).headroom ∧ (inrush .none).nothingToAdmit ∧ (inrush .none).warmRegain = false := by decide +kernel

theorem test_setTrayUnlockedElsewhere :
    ∀ s ∈ [queued, run, parked, plain .faulted, plain .isolated], (s.tray 3).lawful := by decide +kernel

theorem test_setTrayUnlockedParked :
    parked.leased .a ∧ parked.codesPass ∧ (parked.cfg 3).zone = none := by decide +kernel

/-- In INRUSH tries_left stays the smaller, and a cleared over_cap mark makes its entry; a parked tray keeps its place (R23). -/
theorem test_setTrayInrush :
    let s := (inrush .none).setRecord 3 { (inrush .none).tray 3 with overCap := true, triesLeft := 1 }
    (after (exec (.setTray .a 1 3 0 (keepZone 3 150)) s)).map (fun u =>
        ((u.tray 3).triesLeft, (u.tray 3).commitment, (u.tray 3).overCap, u.journal.entries.length)) =
      some (1, 150, false, 1) ∧
    (after (exec (.setTray .a 1 3 0 (keepZone 3 150)) parked)).map (fun u =>
        (u.park, (u.tray 3).triesLeft, (u.tray 3).commitment)) = some ([3], 7, 0) := by decide +kernel

theorem test_setTrayLockedStates :
    let s := locked run
    s.leased .a ∧ s.quiet ∧ (s.tray 3).locked = true ∧ (s.tray 3).lawful ∧ (s.tray 3).state = .run := by decide +kernel

theorem test_setTrayLockedElsewhere :
    (locked idle).quiet ∧ ((locked idle).tray 3).lawful ∧ (locked (plain .faulted)).quiet ∧
      ((locked (plain .faulted)).tray 3).lawful := by decide +kernel

theorem test_setTrayLockedIsolated :
    (locked (plain .isolated)).quiet ∧ ((locked (plain .isolated)).tray 3).lawful := by decide +kernel

theorem test_planOpenStates :
    (planned rack).leased .a ∧ (planned rack).seq.planRev = 0 ∧ (planned rack).seq.staging.holder = none ∧
      (failingPlan rack).leased .a ∧ (failingPlan rack).seq.staging.holder = none ∧
      (staged [] rack).seq.staging.holder = some .a ∧ (1 : Byte) ≠ (planned rack).seq.planRev := by decide +kernel

theorem test_stagingStates :
    (staged [] rack).leased .a ∧ (staged [] rack).seq.staging.holder = some .a ∧ rack.seq.staging.holder ≠ some .a ∧
      31 < (32 : Byte).toNat ∧ 32 < (33 : Byte).toNat ∧ trayOf 31 = some 31 ∧ (32 : Byte).toNat ≤ 32 := by decide +kernel

theorem test_commitRefusalStates :
    let empty := staged [pos 4, { tray := none, bad := false }] rack
    let twice := staged [pos 4, pos 5, pos 4] rack
    empty.leased .a ∧ empty.seq.staging.holder = some .a ∧ empty.seq.staging.badPosition = some 1 ∧ twice.leased .a ∧
      twice.seq.staging.badPosition = none ∧ firstRepeat twice.seq.staging.trays = some 2 := by decide +kernel

theorem test_commitStates :
    let s := staged ((List.finRange 32).map pos) rack
    s.leased .a ∧ s.codesPass ∧ s.seq.staging.holder = some .a ∧
      s.seq.staging.positions.toList.take s.seq.staging.length = (List.finRange 32).map pos ∧
      (List.finRange 32 : List TrayId).Nodup := by decide +kernel

theorem test_shelfStates :
    rack.leased .a ∧ onOff 1 = some true ∧ onOff 0 = some false ∧ onOff 2 = none ∧ rack.acct.redundancy = true := by
  decide +kernel

theorem test_limitStates :
    rack.leased .a ∧ LimitFields.inRange (limits 1023) = true ∧ LimitFields.inRange (limits 1) = true ∧
      LimitFields.inRange (limits 0) = false ∧ LimitFields.inRange (limits 1024) = false := by decide +kernel

theorem test_timingStates :
    rack.leased .a ∧ TimingFields.inRange (timing 0 1) = true ∧ TimingFields.inRange (timing 1 1) = true ∧
      TimingFields.inRange (timing 0 5) = false ∧ rack.seq.paceMode = .gap ∧ rack.seq.paceInterval = 2000 ∧ rack.seq.k = 1 ∧
      TimingFields.inRange { timing 0 4 with interval := 0 } = true ∧ rack.seq.paceTimer.isSome = true ∧
      TimingFields.inRange { timing 0 1 with interval := 60000 } = true ∧ (rack.setPace none).leased .a := by
  decide +kernel

/-- A change to GAP over an empty queue stops the pace timer, a change to CADENCE over a queue starts it (R62). -/
theorem test_timingModes :
    let s := { rack with seq := { rack.seq with paceMode := .cadence } }
    s.leased .a ∧ s.queue = [] ∧ queued.leased .a ∧
      (after (exec (.setTiming .a 1 (timing 0 1)) s)).map (fun t => (t.seq.paceTimer, t.seq.paceMode)) = some (none, .gap) ∧
      (after (exec (.setTiming .a 1 (timing 1 1)) queued)).map (fun t => t.seq.paceTimer) = some (some 2000) := by
  decide +kernel

theorem test_startRackStates :
    let s := present3 (planned idle)
    let full := { s with acct := { s.acct with usable := 99 } }
    s.leased .a ∧ s.startsWait ∧ s.isNormal = true ∧ s.isSettled = true ∧ (s.tray 3).state = .idle ∧
      (s.tray 3).code = .matching ∧ (s.tray 3).locked = false ∧ s.zoneInLeak (s.cfg 3) = false ∧
      (s.station (trayStation 3)).presence = .present ∧ (s.cfg 3).standing ≠ 0 ∧
      max (s.cfg 3).inrush (s.cfg 3).standing ≤ s.headroom ∧ (holdup .dark false rack).isNormal = false ∧
      rack.seq.plan = [] ∧ full.leased .a ∧ full.codesPass ∧ full.headroom < max (full.cfg 3).inrush (full.cfg 3).standing := by
  decide +kernel

/-- The reason of the PLAN_SKIP entry that START_RACK with count 1 makes. -/
def skipReason (s : State) : Option Nat :=
  (after (exec (.startRack .a 1) s)).bind fun t =>
    (t.journal.entries.find? fun e => e.kind == .planSkip).bind Entry.reason

/-- An entry for each reason of R59 but UNATTENDED: BAD_ENTRY, STATE, LOCKED, LEAK, STATION, NO_GRANT. -/
theorem test_skipStates :
    let bad := rack.setPlan [{ tray := 3, code := .failing, reported := false }]
    let leak := (present3 (planned (rack.setRecord 3 (Tray.fresh { part with zone := some 1 } .matching)))).setZone 1
      { rack.zone 1 with state := .leak }
    let noGrant := present3 (planned (rack.setRecord 3 (Tray.fresh TrayConfig.default .matching)))
    bad.leased .a ∧ skipReason bad = some 0 ∧
      skipReason (planned run) = some 1 ∧
      skipReason (planned (locked idle)) = some 2 ∧
      skipReason leak = some 3 ∧
      skipReason (planned idle) = some 4 ∧
      skipReason noGrant = some 5 := by decide +kernel

theorem test_clearZoneStates :
    let s := (plain .isolated).setZone 7 { rack.zone 7 with state := .leak, lastClass := some .dry }
    s.leased .a ∧ zoneOf 7 = some 7 ∧ (s.zone 7).state = .leak ∧ (s.zone 7).lastClass = some .dry ∧ s.recordsLawful ∧
      ((locked s).tray 3).lawful ∧ (locked s).leakZones = [7] := by decide +kernel

theorem test_trapStates : rack.leased .a := by decide +kernel

theorem test_saveStates :
    let s := { rack with store := { image := none, writing := some (StoreWrite.mk .b rack.capture 0 0) } }
    rack.leased .a ∧ rack.store.writing = none ∧ rack.codesPass ∧ s.leased .a ∧ s.store.writing.isSome = true := by
  decide +kernel

theorem test_validReplyStates :
    (polled (poll3 .idle 0) rack).running ∧ completeFrame (reply3 1 60) = some (reply3 1 60) ∧
      validReply 3 (reply3 1 60) = some (.tray true false false 60) ∧ validReply 3 (reply3 8 60) = none := by decide +kernel

theorem test_missStates :
    (polled (poll3 .idle 0) rack).running ∧ (polled (poll3 .idle 0) rack).link.outstanding = some (poll3 .idle 0) ∧
      completeFrame (reply3 1 4096) = some (reply3 1 4096) ∧ validReply 3 (reply3 1 4096) = none := by decide +kernel

theorem test_noPollStates :
    { rack with link := { rack.link with outstanding := none } }.link.outstanding = none ∧
      completeFrame [3, 0xA0, 1, 0, 0, 1] = none := by decide +kernel

theorem test_faultStates :
    (polled (poll3 .run 50) run).running ∧ (polled (poll3 .run 50) run).collectionsAgree ∧ (run.tray 3).state = .run ∧ (queued.tray 3).state = .queued ∧
      ((inrush .none).tray 3).state = .inrush ∧ validReply 3 (reply3 2 0) = some (.tray false true false 0) := by
  decide +kernel

theorem test_selfRequestStates :
    let s := polled (poll3 .run 50) run
    s.running ∧ s.isNormal = true ∧ s.isSettled = true ∧ (s.tray 3).state = .run ∧ (s.tray 3).code = .matching ∧
      (s.tray 3).locked = false ∧ (s.cfg 3).selfRequest = true ∧
      validReply 3 (reply3 1 4095) = some (.tray true false false 4095) ∧ 0 < min 4095 (s.cfg 3).cap ∧
      min 4095 (s.cfg 3).cap ≠ (s.tray 3).grant ∧ min 4095 (s.cfg 3).cap - (s.tray 3).commitment ≤ s.headroom := by
  decide +kernel

/-- Tray 4, held by its station, stands in the queue ahead of tray 3. -/
def heldAhead (mode : PaceMode) (interval : Nat) : State :=
  let s := { queued.claimed 4 (record .queued 50) with queue := [4, 3] }
  { s with seq := { s.seq with paceMode := mode, paceInterval := interval, k := 1 } }

/-- The state after a pace expiry. -/
def paced (s : State) : State := (after (exec .paceExpiry s)).getD s

theorem test_paceStates :
    queued.running ∧ queued.seq.paceTimer.isSome = true ∧ queued.seq.paceMode = .gap ∧ 0 < queued.seq.paceInterval ∧
      queued.startAllowed = true ∧ queued.queue = [3] ∧ (queued.tray 3).state = .queued ∧ queued.held 3 = false ∧
      (queued.tray 3).code = .matching ∧ queued.freeSlot? = some 0 ∧ rack.startAllowed = false ∧
      State.reset.seq.paceTimer = none := by decide +kernel

theorem test_paceStatesHeldAhead :
    let s := heldAhead .gap 0
    s.running ∧ s.seq.paceTimer.isSome = true ∧ s.startAllowed = true ∧ (heldAhead .cadence 20).startAllowed = true ∧
      s.queue = [4] ++ 3 :: [] ∧ s.held 4 = true ∧ (s.tray 3).state = .queued ∧ s.held 3 = false ∧
      (s.tray 3).code = .matching ∧ s.freeSlot? = some 0 ∧ s.inrushCount + 1 = s.seq.k := by decide +kernel

/-- A CADENCE expiry starts tray 3 behind the held tray 4 and reloads; one that empties the queue stops the timer; in GAP with
interval 0 the timer stays idle (R64, R65, R66). -/
theorem test_cadenceStarts :
    let one := { queued with seq := { queued.seq with paceMode := .cadence } }
    ((paced (heldAhead .cadence 20)).tray 3).state = .inrush ∧ (paced (heldAhead .cadence 20)).queue = [4] ∧
      (paced (heldAhead .cadence 20)).seq.paceTimer = some 20 ∧ ((paced one).tray 3).state = .inrush ∧
      (paced one).seq.paceTimer = none ∧ ((paced (heldAhead .gap 0)).tray 3).state = .inrush ∧
      (paced (heldAhead .gap 0)).seq.paceTimer = none := by decide +kernel

theorem test_windowStates :
    (inrush .good).running ∧ ((inrush .good).tray 3).state = .inrush ∧ ((inrush .good).tray 3).lawful ∧
      (inrush .good).quiet ∧ (inrush .notGood).quiet ∧ 0 < ((inrush .none).tray 3).triesLeft ∧
      (let s := (inrush .none).setRecord 3 { record .inrush 50 with triesLeft := 0 }
       s.quiet ∧ (s.tray 3).lawful ∧ (s.tray 3).triesLeft = 0) := by decide +kernel

theorem test_acLossStates :
    let s := { run with acct := { run.acct with battery := 0 } }
    s.running ∧ s.sup.pfailAsserted = false ∧ s.hup.state = .normal ∧ s.isSettled = true ∧ s.acct.battery = 0 ∧
      s.hup.stage = none ∧ s.collectionsAgree ∧ run.acct.battery ≠ 0 ∧ run.codesPass ∧
      queued.running ∧ queued.isNormal = true ∧ queued.acct.battery ≠ 0 ∧ queued.codesPass ∧ (queued.tray 3).state = .queued := by
  decide +kernel

theorem test_otherPfailStates :
    (holdup .regain false rack).running ∧ (holdup .regain true rack).sup.pfailAsserted = false ∧
      (∀ t : TrayId, ((holdup .regain true rack).tray t).state = .idle) ∧ (episode 20 run).running ∧
      (episode 20 run).sup.pfailAsserted = true ∧ (holdup .dark false (episode 20 run)).running := by decide +kernel

theorem test_warmRegainStates :
    (episode 20 run).running ∧ (episode 20 run).sup.pfailAsserted = true ∧ (episode 20 run).hup.state = .holdup ∧
      (episode 20 run).acct.usable = (episode 20 run).acct.battery := by decide +kernel

theorem test_qualificationStates :
    let warm := (holdup .regain false run).setHup { (holdup .regain false run).hup with qualTimer := some 0 }
    let short := { warm with acct := { warm.acct with shelf := 49 } }
    State.reset.running ∧ State.reset.hup.qualTimer.isSome = true ∧ State.reset.hup.cold = true ∧ warm.running ∧
      warm.hup.qualTimer.isSome = true ∧ warm.hup.cold = false ∧ warm.acct.committed ≤ warm.acct.shelf ∧
      short.acct.shelf < short.acct.committed ∧ rack.hup.qualTimer = none := by decide +kernel

theorem test_stageTickStates :
    (episode 12 run).running ∧ (episode 12 run).hup.stageTick.isSome = true ∧
      ((episode 12 run).hup.bound1 : Int) < max ((episode 12 run).hup.timer - 1) (-32768) ∧
      rack.hup.stageTick = none := by decide +kernel

theorem test_stageOneStates :
    let s := episode 11 (rack.claimed 3 { record .run 50 with adopted := true })
    s.running ∧ s.codesPass ∧ s.recordsLawful ∧ s.onBattery = true ∧ s.hup.qualified = false ∧
      s.hup.stageTick.isSome = true ∧ s.hup.stage = some .one ∧ s.hup.timer - 1 ≤ s.hup.bound1 ∧
      (s.hup.bound2 : Int) < s.hup.timer - 1 ∧ (s.tray 3).cfg.cls = 0 := by decide +kernel

theorem test_conversionStates :
    rack.sup.held = false ∧ (65535 : Half).toNat ≤ channelMax 0 ∧ (1023 : Half).toNat ≤ channelMax 8 := by decide +kernel

theorem test_closeStates : State.reset.running ∧ State.reset.sense.timer.isSome = true := by decide +kernel

/-- The state after a census close. -/
def busClosed (s : State) : State := (after (exec .censusClose s)).getD s

/-- The value and reason of each journal entry. -/
def entryValues (s : State) : List (Option Nat × Option Nat) := s.journal.entries.map fun e => (e.value, e.reason)

/-- A close at each side of both bus limits: both crossed, both back, at the limits themselves, and still outside (R127). -/
theorem test_busStates :
    let s := bus 4599 5801 false false
    s.running ∧ s.isNormal = true ∧ s.queue = [] ∧ s.park = [] ∧
      (busClosed s).sense.low = true ∧ (busClosed s).sense.high = true ∧
      entryValues (busClosed s) = [(some 4599, some 0), (some 5801, some 2)] ∧
      (busClosed s).portA.flags &&& 0x4000 = 0x4000 := by decide +kernel

theorem test_busStatesBack :
    let s := bus 4600 5800 true true
    (busClosed s).sense.low = false ∧ (busClosed s).sense.high = false ∧
      entryValues (busClosed s) = [(some 4600, some 1), (some 5800, some 3)] ∧
      (busClosed s).portA.flags &&& 0x4000 = 0 := by decide +kernel

theorem test_busStatesStay :
    let s := bus 4599 5801 true true
    (busClosed s).sense.low = true ∧ (busClosed s).sense.high = true ∧ entryValues (busClosed s) = [] ∧
      (busClosed s).portA.flags &&& 0x4000 = 0x4000 := by decide +kernel

theorem test_leakStates :
    let s := leaking
    s.running ∧ s.codesPass ∧ s.sense.timer.isSome = true ∧ (s.zone 1).state = .suspect ∧ (s.zone 1).enabled = true ∧
      s.leak.confirm ≤ (s.zone 1).wetCount + 1 ∧ (s.sense.filling[zoneChannel 1]).maximum = some 300 ∧
      s.leak.wet ≤ 300 ∧ (s.tray 3).inZone 1 = true := by decide +kernel

theorem test_supplyStates :
    (held .powerOn).sup.held = true ∧ (held .powerOn).sup.vstby = true ∧ (held .powerOn).sup.vcore = true ∧
      (held .powerOn).sup.startDelay.isSome = true ∧ (held .powerOn).sup.resetAsserted = false ∧
      rack.sup.held = false ∧ rack.sup.vcore = true ∧ rack.sup.vstby = true := by decide +kernel

/-- The two events that end a reset. -/
theorem test_resetEndStates :
    let pin (c : ResetCause) := { held c with sup := { (held c).sup with startDelay := none, resetAsserted := true } }
    (held .powerOn).resetEndsAt .startDelayExpiry ∧ (held (.warm true false)).resetEndsAt .startDelayExpiry ∧
      (pin .powerOn).resetEndsAt .resetNDeasserted ∧ (pin (.warm false true)).resetEndsAt .resetNDeasserted ∧
      after (exec .resetNDeasserted (pin .powerOn)) = some State.reset := by decide +kernel

theorem test_warmStates :
    (held (.warm true false)).hold.cause = .warm true false ∧
      (∀ t : TrayId, (((held (.warm true false)).store.image.getD Image.default).trays[t]).2 = .matching) := by
  decide +kernel

/-- Both levels of PFAIL_N at the end of a POWER_ON, and a warm restart with an enabled tray in a latched zone and one outside. -/
theorem test_restartClauses :
    let p := { held .powerOn with sup := { (held .powerOn).sup with pfailAsserted := true } }
    let w := held (.warm false true)
    let img := { Image.default with trays := Image.default.trays.set 4 ({ part with zone := some 7 }, .matching) }
    let w := { w with
      store := { w.store with image := some img }
      hold := { w.hold with enable := (w.hold.enable.set 4 true).set 5 true, leakLatch := w.hold.leakLatch.set 7 true } }
    p.sup.pfailAsserted = true ∧ (held .powerOn).sup.pfailAsserted = false ∧ w.hold.leakLatch[(7 : ZoneId)] = true ∧
      (after (exec .startDelayExpiry w)).map (fun u =>
          (((u.tray 4).state, (u.tray 4).revision), ((u.tray 5).state, (u.tray 5).revision), (u.tray 6).state)) =
        some ((.isolated, 1), (.run, 0), .idle) := by decide +kernel

theorem test_soundLatches : run.latchesSound ∧ (after (step run)).isSome = true := by decide +kernel

theorem test_soundRecords : run.recordsLawful ∧ run.committedSums := by decide +kernel

theorem test_soundCollections :
    queued.collectionsAgree ∧ (inrush .good).collectionsAgree ∧ parked.collectionsAgree := by
  refine ⟨⟨?_, ?_, ?_, ?_, ?_, ?_⟩, ⟨?_, ?_, ?_, ?_, ?_, ?_⟩, ?_, ?_, ?_, ?_, ?_, ?_⟩ <;> decide +kernel

theorem test_soundRack : run.rackSound := by
  refine ⟨?_, ?_, ⟨?_, ?_, ?_, ?_, ?_, ?_⟩, ?_, ?_, ?_, ?_⟩ <;> decide +kernel

end Sys2Proof.Tests
end

section
/-! SUPPORT. What every command that is no supply or reset event is made of: moves of Evolves, changes beside the rack, a
zone's latches, and the two rewrites of a record that no move makes. Each part of the state that a command may write is named,
so that one relation says both what the command keeps and what it leaves alone. -/

namespace Sys2Proof.Machine

/-! ### The parts of the state -/

/-- The parts of the state that commands write or leave alone as wholes. -/
inductive Part where
  | pending | record | pins | config | shelf | leak | sense | stations | poll | cutoff | timing | plan | staging | store
  | masks (p : Port) | lease (p : Port) | answer (p : Port)

/-- Two states agree in a part. -/
def Part.same (s t : State) : Part → Prop
  | .pending => t.pending = s.pending
  | .record => (t.hold.cause, t.hold.adopted, t.hold.restored, t.hold.result) =
      (s.hold.cause, s.hold.adopted, s.hold.restored, s.hold.result)
  | .pins => t.sup = s.sup
  | .config => (fun n => (t.cfg n, (t.tray n).code)) = fun n => (s.cfg n, (s.tray n).code)
  | .shelf => (t.acct.redundancy, t.acct.autoRestart) = (s.acct.redundancy, s.acct.autoRestart)
  | .leak => t.leak = s.leak
  | .sense => t.sense = s.sense
  | .stations => t.link.stations = s.link.stations
  | .poll => (t.link.outstanding, t.link.replyTimer, t.link.rounds) =
      (s.link.outstanding, s.link.replyTimer, s.link.rounds)
  | .cutoff => t.hup.cutoff = s.hup.cutoff
  | .timing => (t.link.replyTimeout, t.hup.qualification, (t.hup.s1, t.hup.s2, t.hup.s3),
        (t.seq.paceMode, t.seq.paceInterval, t.seq.k), t.seq.w0, t.seq.w1, t.seq.w2) =
      (s.link.replyTimeout, s.hup.qualification, (s.hup.s1, s.hup.s2, s.hup.s3),
        (s.seq.paceMode, s.seq.paceInterval, s.seq.k), s.seq.w0, s.seq.w1, s.seq.w2)
  | .plan => (t.seq.planRev, t.seq.keys, t.seq.plan.map fun e => (e.tray, e.code)) =
      (s.seq.planRev, s.seq.keys, s.seq.plan.map fun e => (e.tray, e.code))
  | .staging => t.seq.staging = s.seq.staging
  | .store => t.store = s.store
  | .masks p => ((t.port p).enable, (t.port p).urgent) = ((s.port p).enable, (s.port p).urgent)
  | .lease p => (t.port p).lease = (s.port p).lease
  | .answer p => ((t.port p).state, (t.port p).response, (t.port p).execTag) =
      ((s.port p).state, (s.port p).response, (s.port p).execTag)

theorem Part.same_trans {x : Part} {s t u : State} (h : x.same s t) (h' : x.same t u) : x.same s u := by
  cases x <;> exact Eq.trans h' h

/-- No move of Evolves writes any of the parts. -/
theorem Evolves.same {s t : State} (h : Evolves s t) (x : Part) : x.same s t := by
  have hu := h.sameUnits
  have hq := hu.seq
  have hs := hu.shelf
  have hh := hu.stages
  have ha := hu.portA
  have hb := hu.portB
  simp only [Sequencer.fixed, PortRec.service, Prod.mk.injEq] at hq hs hh ha hb
  cases x with
  | pending => exact hu.pending
  | record => exact hu.record
  | pins => exact hu.sup
  | config => exact funext fun n => Prod.ext (h.cfg n) (h.code n)
  | shelf => simp only [Part.same, hs]
  | leak => exact hu.leak
  | sense => exact hu.sense
  | stations => exact congrArg Link.stations hu.link
  | poll => simp only [Part.same, hu.link]
  | cutoff => simp only [Part.same, hh]
  | timing => simp only [Part.same, hu.link, hh, hq]
  | plan => simp only [Part.same, hq]
  | staging => simp only [Part.same, hq]
  | store => exact hu.store
  | masks p => cases p <;> simp only [Part.same, State.port, ha, hb]
  | lease p => cases p <;> simp only [Part.same, State.port, ha, hb]
  | answer p => cases p <;> simp only [Part.same, State.port, ha, hb]

/-! ### Changes beside the rack -/

/-- The second state differs from the first beside the rack only: in the parts that w names and in what no invariant of the
trays, the collections, the latches and the journal speaks of. -/
structure Aside (w : Part → Bool) (s t : State) : Prop where
  parts : ∀ x, w x = false → x.same s t
  held : t.sup.held = s.sup.held
  trays : t.trays = s.trays
  queue : t.queue = s.queue
  park : t.park = s.park
  slots : t.seq.slots.map (Option.map Slot.tray) = s.seq.slots.map (Option.map Slot.tray)
  committed : t.acct.committed = s.acct.committed
  enable : t.hold.enable = s.hold.enable
  closed : t.hold.closed = s.hold.closed
  leakLatch : t.hold.leakLatch = s.hold.leakLatch
  leaks : ∀ z, ((t.zone z).state == .leak) = ((s.zone z).state == .leak)
  ring : t.journal.entries = s.journal.entries
  unreadA : t.portA.unread ≤ s.portA.unread
  unreadB : t.portB.unread ≤ s.portB.unread

theorem Aside.trans {w : Part → Bool} {s t u : State} (h : Aside w s t) (h' : Aside w t u) : Aside w s u where
  parts x hx := Part.same_trans (h.parts x hx) (h'.parts x hx)
  held := h'.held.trans h.held
  trays := h'.trays.trans h.trays
  queue := h'.queue.trans h.queue
  park := h'.park.trans h.park
  slots := h'.slots.trans h.slots
  committed := h'.committed.trans h.committed
  enable := h'.enable.trans h.enable
  closed := h'.closed.trans h.closed
  leakLatch := h'.leakLatch.trans h.leakLatch
  leaks z := (h'.leaks z).trans (h.leaks z)
  ring := h'.ring.trans h.ring
  unreadA := Nat.le_trans h'.unreadA h.unreadA
  unreadB := Nat.le_trans h'.unreadB h.unreadB

/-- A port's record is replaced: the cursor does not fall back, and the masks, the lease and the answer change only where w
says so. -/
theorem setPort_aside {w : Part → Bool} (p : Port) (r : PortRec) (s : State) (hu : r.unread ≤ (s.port p).unread)
    (hm : w (.masks p) = false → (r.enable, r.urgent) = ((s.port p).enable, (s.port p).urgent))
    (hl : w (.lease p) = false → r.lease = (s.port p).lease)
    (ha : w (.answer p) = false → (r.state, r.response, r.execTag) =
      ((s.port p).state, (s.port p).response, (s.port p).execTag)) : Aside w s (s.setPort p r) where
  parts x hx := by
    cases x with
    | masks q => cases p <;> cases q <;> first | exact hm hx | rfl
    | lease q => cases p <;> cases q <;> first | exact hl hx | rfl
    | answer q => cases p <;> cases q <;> first | exact ha hx | rfl
    | _ => cases p <;> rfl
  held := by cases p <;> rfl
  trays := setPort_trays ..
  queue := setPort_queue ..
  park := setPort_park ..
  slots := by cases p <;> rfl
  committed := by cases p <;> rfl
  enable := by cases p <;> rfl
  closed := by cases p <;> rfl
  leakLatch := by cases p <;> rfl
  leaks z := by cases p <;> rfl
  ring := by cases p <;> rfl
  unreadA := by cases p; exacts [hu, Nat.le_refl _]
  unreadB := by cases p; exacts [Nat.le_refl _, hu]

end Sys2Proof.Machine
end

section
/-! SUPPORT. The relation Runs, and what it keeps: the parts that w does not name, the records, the sums, the collections,
the latches and the journal. -/

namespace Sys2Proof.Machine

/-- The record that an accepted CLEAR_FAULT leaves (R25). -/
def Tray.repaired (r : Tray) (st : TrayState) : Tray :=
  { r with state := st, faultCause := none, triesLeft := r.cfg.tries, revision := r.revision + 1 }

/-- The second state follows from the first by what a command that is no supply or reset event is made of; only the parts that
w names are written. -/
inductive Runs (w : Part → Bool) : State → State → Prop
  | trans {s t u} : Runs w s t → Runs w t u → Runs w s u
  | evolves {s t} : Evolves s t → Runs w s t
  | aside {s t} : Aside w s t → Runs w s t
  | latched (z v r s) : w .leak = true → (r.state == .leak) = v → Runs w s (setLatches z v (s.setZone z r))
  | rewritten (t c b s) : w .config = true → Runs w s (s.putTray t ((s.tray t).rewrite c b))
  | repaired (t st s) : (s.tray t).state = .faulted → st = .idle ∨ st = .isolated →
      Runs w s (s.putTray t ((s.tray t).repaired st))

variable {w : Part → Bool} {s u : State}

theorem Runs.refl (s : State) : Runs w s s := .evolves (.refl s)

theorem Runs.ite {c : Prop} [Decidable c] {a b : State} (ha : c → Runs w s a) (hb : ¬c → Runs w s b) :
    Runs w s (if c then a else b) := by
  split
  · exact ha ‹_›
  · exact hb ‹_›

theorem Runs.foldl {α : Type} {f : State → α → State} (h : ∀ s a, Runs w s (f s a)) (l : List α) (s : State) :
    Runs w s (l.foldl f s) := by
  induction l generalizing s with
  | nil => exact .refl s
  | cons a l ih => exact (h s a).trans (ih _)

/-! ### The parts -/

theorem putTray_part (t : TrayId) (r : Tray) (s : State) (x : Part)
    (h : x = .config → r.cfg = (s.tray t).cfg ∧ r.code = (s.tray t).code) : x.same s (s.putTray t r) := by
  cases x with
  | config =>
    refine funext fun n => ?_
    obtain ⟨hcfg, hcode⟩ := h rfl
    unfold State.cfg
    rw [putTray_tray]
    split
    · rename_i e
      rw [hcfg, hcode, e]
    · rfl
  | masks p => cases p <;> rfl
  | lease p => cases p <;> rfl
  | answer p => cases p <;> rfl
  | _ => rfl

/-- A part that w does not name is left as it was. -/
theorem Runs.same (h : Runs w s u) {x : Part} (hx : w x = false) : x.same s u := by
  induction h with
  | trans _ _ h h' => exact Part.same_trans h h'
  | evolves h => exact h.same x
  | aside h => exact h.parts x hx
  | latched z v r s hw _ =>
    cases x with
    | leak => exact absurd (hw.symm.trans hx) (by decide)
    | masks p => cases p <;> rfl
    | lease p => cases p <;> rfl
    | answer p => cases p <;> rfl
    | _ => rfl
  | rewritten t c b s hw =>
    refine putTray_part t _ s x fun e => ?_
    rw [e, hw] at hx
    exact absurd hx (by decide)
  | repaired t st s _ _ => exact putTray_part t _ s x fun _ => ⟨rfl, rfl⟩

theorem Runs.held (h : Runs w s u) : u.sup.held = s.sup.held := by
  induction h with
  | trans _ _ h h' => exact h'.trans h
  | evolves h => exact congrArg Supply.held h.sameUnits.sup
  | aside h => exact h.held
  | latched | rewritten | repaired => rfl

/-! ### The records and the sum of their commitments -/

/-- An accepted SET_TRAY leaves a lawful record lawful. -/
theorem rewrite_lawful (c : TrayConfig) (b : Bool) {r : Tray} (h : r.lawful) : (r.rewrite c b).lawful := by
  obtain ⟨_, hgrant, hmarks, hadopted, hcause, htries⟩ := h
  have hstate : (r.rewrite c b).state = r.state ∨
      (r.state = .idle ∨ r.state = .isolated) ∧ ((r.rewrite c b).state = .idle ∨ (r.rewrite c b).state = .isolated) := by
    show rewriteState r b = _ ∨ _ ∧ (rewriteState r b = _ ∨ rewriteState r b = _)
    unfold rewriteState
    cases r.state <;> simp
  have htries' : (r.rewrite c b).triesLeft ≤ c.tries := by
    show r.rewriteTries c.tries ≤ c.tries
    unfold Tray.rewriteTries
    split
    · exact Nat.min_le_right ..
    · exact Nat.le_refl _
  rcases hstate with he | ⟨ho, hn⟩
  · have hc : (r.rewrite c b).commitment = (r.rewrite c b).commitFor (r.rewrite c b).state (r.rewrite c b).grant := by
      rw [he]
      rfl
    refine ⟨hc, ?_, ?_, ?_, ?_, htries'⟩
    · rw [he]
      exact hgrant
    · rw [he]
      exact fun hk => ⟨by simp [Tray.rewrite, (hmarks hk).1], by simp [Tray.rewrite, (hmarks hk).2]⟩
    · rw [he]
      exact hadopted
    · rw [he]
      exact hcause
  · have hk : r.state.keepsMarks = false := by rcases ho with ho | ho <;> rw [ho] <;> rfl
    have hf : r.state ≠ .faulted := by rcases ho with ho | ho <;> rw [ho] <;> decide
    have ha : r.state ≠ .run := by rcases ho with ho | ho <;> rw [ho] <;> decide
    have hg : r.grant = 0 := hgrant (ho.imp_right Or.inl)
    have hc : (r.rewrite c b).commitment = 0 := by
      show Tray.commitFor _ r.state r.grant = 0
      rcases ho with ho | ho <;> rw [ho] <;> rfl
    have hd : (r.rewrite c b).deferred = false := by simp [Tray.rewrite, (hmarks hk).1]
    have hv : (r.rewrite c b).overCap = false := by simp [Tray.rewrite, (hmarks hk).2]
    refine ⟨?_, fun _ => hg, fun _ => ⟨hd, hv⟩, fun h => absurd (hadopted h) ha, ?_, htries'⟩
    · rw [hc]
      rcases hn with hn | hn <;> rw [hn] <;> rfl
    · refine ⟨fun h => absurd (hcause.mp h) hf, fun h => ?_⟩
      rw [h] at hn
      exact absurd hn (by decide)

/-- An accepted CLEAR_FAULT leaves a lawful record lawful. -/
theorem repaired_lawful {r : Tray} {st : TrayState} (hf : r.state = .faulted) (hst : st = .idle ∨ st = .isolated)
    (h : r.lawful) : (r.repaired st).lawful := by
  obtain ⟨hcommit, hgrant, hmarks, hadopted, _, _⟩ := h
  have hg : r.grant = 0 := hgrant (Or.inr (Or.inr hf))
  have hm := hmarks (by rw [hf]; rfl)
  have ha : r.adopted = false := by
    cases h : r.adopted
    · rfl
    · exact absurd (hadopted h) (by rw [hf]; decide)
  have hc : r.commitment = 0 := by rw [hcommit, hf]; rfl
  rcases hst with hst | hst <;> subst hst <;>
    refine ⟨hc, fun _ => hg, fun _ => hm, fun h => ?_, by simp [Tray.repaired], Nat.le_refl _⟩ <;>
    exact absurd (ha.symm.trans h) (by decide)

theorem putTray_recordsLawful (t : TrayId) (r : Tray) (h : s.recordsLawful) (hr : r.lawful) :
    (s.putTray t r).recordsLawful := by
  intro n
  rw [putTray_tray]
  split
  · exact hr
  · exact h n

theorem recordsLawful_congr (ht : u.trays = s.trays) (h : s.recordsLawful) : u.recordsLawful :=
  fun n => (tray_congr ht n).symm ▸ h n

/-- What runs in a command keeps every record lawful. -/
theorem Runs.recordsLawful (h : Runs w s u) (hs : s.recordsLawful) : u.recordsLawful := by
  induction h with
  | trans _ _ h h' => exact h' (h hs)
  | evolves h => exact h.recordsLawful hs
  | aside h => exact recordsLawful_congr h.trays hs
  | latched => exact hs
  | rewritten t c b s _ => exact putTray_recordsLawful t _ hs (rewrite_lawful c b (hs t))
  | repaired t st s hf hst => exact putTray_recordsLawful t _ hs (repaired_lawful hf hst (hs t))

/-- What runs in a command keeps committed the sum of the commitments. -/
theorem Runs.committedSums (h : Runs w s u) (hs : s.committedSums) : u.committedSums := by
  induction h with
  | trans _ _ h h' => exact h' (h hs)
  | evolves h => exact h.committedSums hs
  | aside h => exact committedSums_congr h.trays h.committed hs
  | latched => exact hs
  | rewritten t c b s _ => exact putTray_committedSums t _ hs
  | repaired t st s _ _ => exact putTray_committedSums t _ hs

/-! ### The latches and the journal -/

/-- Every zone's two latches are set exactly in LEAK. -/
def State.valvesTell (s : State) : Prop :=
  ∀ z : ZoneId, s.hold.closed[z] = s.hold.leakLatch[z] ∧ s.hold.closed[z] = ((s.zone z).state == .leak)

theorem valvesTell_congr (hc : u.hold.closed = s.hold.closed) (hl : u.hold.leakLatch = s.hold.leakLatch)
    (hz : ∀ z, ((u.zone z).state == .leak) = ((s.zone z).state == .leak)) (h : s.valvesTell) : u.valvesTell := by
  intro z
  rw [hc, hl, hz]
  exact h z

theorem latched_valvesTell (z : ZoneId) (v : Bool) (r : Zone) (hr : (r.state == .leak) = v) (h : s.valvesTell) :
    (setLatches z v (s.setZone z r)).valvesTell := by
  intro y
  by_cases hy : (z : Nat) = y
  · obtain rfl : z = y := Fin.ext hy
    simp [setLatches, State.setZone, State.zone, hr]
  · have hy' : z ≠ y := fun e => hy (congrArg Fin.val e)
    simpa [setLatches, State.setZone, State.zone, Vector.getElem_set, hy] using h y

/-- What runs in a command keeps the enable latches true to the states. -/
theorem Runs.enablesTell (h : Runs w s u) (hs : s.enablesTell) : u.enablesTell := by
  induction h with
  | trans _ _ h h' => exact h' (h hs)
  | evolves h => exact h.enablesTell hs
  | aside h => exact enablesTell_congr h.trays h.enable hs
  | latched => exact hs
  | rewritten t c b s _ => exact putTray_enablesTell t _ hs
  | repaired t st s _ _ => exact putTray_enablesTell t _ hs

/-- What runs in a command keeps the valve and leak latches true to the zones. -/
theorem Runs.valvesTell (h : Runs w s u) (hs : s.valvesTell) : u.valvesTell := by
  induction h with
  | trans _ _ h h' => exact h' (h hs)
  | evolves h =>
    exact valvesTell_congr h.valves.1 h.valves.2 (fun z => by simp only [State.zone, h.sameUnits.leak]) hs
  | aside h => exact valvesTell_congr h.closed h.leakLatch h.leaks hs
  | latched z v r s _ hr => exact latched_valvesTell z v r hr hs
  | rewritten | repaired => exact hs

/-- What runs in a command keeps the ring and the cursors within 48 entries. -/
theorem Runs.journalBounded (h : Runs w s u) (hs : s.journalBounded) : u.journalBounded := by
  induction h with
  | trans _ _ h h' => exact h' (h hs)
  | evolves h => exact h.journalBounded hs
  | aside h =>
    obtain ⟨hr, ha, hb⟩ := hs
    rw [← h.ring] at hr ha hb
    exact ⟨hr, Nat.le_trans h.unreadA ha, Nat.le_trans h.unreadB hb⟩
  | latched | rewritten | repaired => exact hs

end Sys2Proof.Machine
end

section
/-! SUPPORT. The collections: sorting permutes, a move takes its tray out of one collection and puts it into another, and so
what runs in a command keeps each collection the set of the trays in its state (R12). -/

namespace Sys2Proof.Machine

variable {w : Part → Bool} {s u : State}

theorem insertBy_perm (before : TrayId → TrayId → Bool) (t : TrayId) (l : List TrayId) :
    (insertBy before t l).Perm (t :: l) := by
  induction l with
  | nil => exact .refl _
  | cons a l ih =>
    unfold insertBy
    split
    · exact .refl _
    · exact (ih.cons a).trans (.swap t a l)

theorem sortBy_perm (before : TrayId → TrayId → Bool) (l : List TrayId) : (sortBy before l).Perm l := by
  induction l with
  | nil => exact .refl _
  | cons a l ih => exact (insertBy_perm before a _).trans (ih.cons a)

/-! ### The collections less one tray -/

/-- The tray that each inrush slot holds. -/
def State.slotTrays (s : State) : Vector (Option TrayId) 4 := s.seq.slots.map (Option.map Slot.tray)

theorem slotTrays_get (s : State) (j : SlotId) : s.slotTrays[j] = (s.seq.slots[j]).map Slot.tray := by
  simp [State.slotTrays]

/-- The collections agree with the states, but for a tray that is in none of them. -/
structure State.collectionsBut (t : TrayId) (s : State) : Prop where
  queueNodup : s.queue.Nodup
  parkNodup : s.park.Nodup
  queue : ∀ n, n ∈ s.queue ↔ n ≠ t ∧ (s.tray n).state = .queued
  park : ∀ n, n ∈ s.park ↔ n ≠ t ∧ (s.tray n).state = .parked
  slots : ∀ n, (∃ j : SlotId, s.slotTrays[j] = some n) ↔ n ≠ t ∧ (s.tray n).state = .inrush
  slotsInj : ∀ (j k : SlotId) n, s.slotTrays[j] = some n → s.slotTrays[k] = some n → j = k

/-- The collections agree with the states, read off the slots' trays. -/
theorem collectionsAgree_iff (s : State) : s.collectionsAgree ↔
    s.queue.Nodup ∧ s.park.Nodup ∧ (∀ n, n ∈ s.queue ↔ (s.tray n).state = .queued) ∧
    (∀ n, n ∈ s.park ↔ (s.tray n).state = .parked) ∧
    (∀ n, (∃ j : SlotId, s.slotTrays[j] = some n) ↔ (s.tray n).state = .inrush) ∧
    ∀ (j k : SlotId) n, s.slotTrays[j] = some n → s.slotTrays[k] = some n → j = k := by
  have hinj : (∀ j k : SlotId, (s.seq.slots[j]).isSome = true →
        (s.seq.slots[j]).map Slot.tray = (s.seq.slots[k]).map Slot.tray → j = k) ↔
      ∀ (j k : SlotId) n, (s.seq.slots[j]).map Slot.tray = some n → (s.seq.slots[k]).map Slot.tray = some n → j = k := by
    constructor
    · intro h j k n hj hk
      refine h j k ?_ (hj.trans hk.symm)
      cases hs : s.seq.slots[j]
      · rw [hs] at hj
        exact absurd hj (by simp)
      · rfl
    · intro h j k hj he
      obtain ⟨v, hv⟩ := Option.isSome_iff_exists.mp hj
      have hn : (s.seq.slots[j]).map Slot.tray = some v.tray := by rw [hv]; rfl
      exact h j k v.tray hn (he ▸ hn)
  unfold State.collectionsAgree
  simp only [slotTrays_get, hinj]

theorem collectionsAgree_congr (hq : u.queue = s.queue) (hp : u.park.Perm s.park) (hs : u.slotTrays = s.slotTrays)
    (ht : ∀ n, (u.tray n).state = (s.tray n).state) (h : s.collectionsAgree) : u.collectionsAgree := by
  rw [collectionsAgree_iff] at h ⊢
  simp only [hq, hp.nodup_iff, hp.mem_iff, hs, ht]
  exact h

theorem collectionsBut_congr {t : TrayId} (hq : u.queue = s.queue) (hp : u.park = s.park)
    (hs : u.slotTrays = s.slotTrays) (ht : ∀ n, n ≠ t → (u.tray n).state = (s.tray n).state)
    (h : s.collectionsBut t) : u.collectionsBut t := by
  obtain ⟨h1, h2, h3, h4, h5, h6⟩ := h
  have state (st : TrayState) (n : TrayId) :
      (n ≠ t ∧ (u.tray n).state = st) ↔ (n ≠ t ∧ (s.tray n).state = st) :=
    and_congr_right fun hn => by rw [ht n hn]
  refine ⟨hq ▸ h1, hp ▸ h2, fun n => ?_, fun n => ?_, fun n => ?_, by rwa [hs]⟩
  · rw [hq, state]
    exact h3 n
  · rw [hp, state]
    exact h4 n
  · rw [hs, state]
    exact h5 n

/-! ### Leaving and joining -/

theorem dequeue_queue (t : TrayId) (s : State) : (dequeue t s).queue = s.queue.filter (· != t) := by
  unfold dequeue
  dsimp only
  split <;> rfl

theorem dequeue_slotTrays (t : TrayId) (s : State) : (dequeue t s).slotTrays = s.slotTrays := by
  unfold dequeue
  dsimp only
  split <;> rfl

theorem enqueue_queue (t : TrayId) (s : State) : (enqueue t s).queue = s.queue ++ [t] := by
  unfold enqueue
  dsimp only
  split <;> rfl

theorem enqueue_slotTrays (t : TrayId) (s : State) : (enqueue t s).slotTrays = s.slotTrays := by
  unfold enqueue
  dsimp only
  split <;> rfl

theorem freeSlot_slotTrays (t : TrayId) (s : State) (j : SlotId) (n : TrayId) :
    (freeSlot t s).slotTrays[j] = some n ↔ n ≠ t ∧ s.slotTrays[j] = some n := by
  simp only [slotTrays_get]
  have : (freeSlot t s).seq.slots[j] =
      if (s.seq.slots[j]).any (fun v => v.tray == t) then none else s.seq.slots[j] := by
    simp [freeSlot, opportunity, State.setAgenda]
  rw [this]
  cases s.seq.slots[j] with
  | none => simp
  | some v =>
    by_cases hv : v.tray = t
    · simp [hv, eq_comm]
    · simp only [Option.any_some, beq_iff_eq, hv, if_false, Option.map_some, Option.some.injEq]
      exact ⟨fun e => ⟨e ▸ hv, e⟩, And.right⟩

/-- A tray that leaves its collection is in none. -/
theorem leaveCollection_but (t : TrayId) (h : s.collectionsAgree) : (leaveCollection t s).collectionsBut t := by
  obtain ⟨h1, h2, h3, h4, h5, h6⟩ := (collectionsAgree_iff s).mp h
  have other {st st' : TrayState} (hst : (s.tray t).state = st') (hne : st ≠ st') (n : TrayId) :
      (s.tray n).state = st ↔ n ≠ t ∧ (s.tray n).state = st :=
    ⟨fun hn => ⟨fun e => hne (hn.symm.trans (e ▸ hst)), hn⟩, And.right⟩
  have out (n : TrayId) (l : List TrayId) (st : TrayState) (hl : ∀ n, n ∈ l ↔ (s.tray n).state = st) :
      n ∈ l.filter (· != t) ↔ n ≠ t ∧ (s.tray n).state = st := by
    rw [List.mem_filter, hl, bne_iff_ne, and_comm]
  unfold leaveCollection
  split
  · rename_i hst
    refine ⟨?_, ?_, fun n => ?_, fun n => ?_, fun n => ?_, ?_⟩ <;>
      simp only [dequeue_queue, dequeue_park, dequeue_slotTrays, tray_congr (dequeue_trays t s)]
    · exact h1.filter _
    · exact h2
    · exact out n _ _ h3
    · exact (h4 n).trans (other hst (by decide) n)
    · exact (h5 n).trans (other hst (by decide) n)
    · exact h6
  · rename_i hst
    exact ⟨h1, h2.filter _, fun n => (h3 n).trans (other hst (by decide) n), fun n => out n _ _ h4,
      fun n => (h5 n).trans (other hst (by decide) n), h6⟩
  · rename_i hst
    refine ⟨h1, h2, fun n => (h3 n).trans (other hst (by decide) n), fun n => (h4 n).trans (other hst (by decide) n),
      fun n => ?_, fun j k n hj hk => ?_⟩
    · simp only [freeSlot_slotTrays, exists_and_left, h5]
      rfl
    · rw [freeSlot_slotTrays] at hj hk
      exact h6 j k n hj.2 hk.2
  · rename_i hq hp hi
    have none (st : TrayState) (hst : (s.tray t).state ≠ st) (n : TrayId) :
        (s.tray n).state = st ↔ n ≠ t ∧ (s.tray n).state = st :=
      ⟨fun hn => ⟨fun e => hst (e ▸ hn), hn⟩, And.right⟩
    exact ⟨h1, h2, fun n => (h3 n).trans (none _ hq n), fun n => (h4 n).trans (none _ hp n),
      fun n => (h5 n).trans (none _ hi n), h6⟩

/-- A tray in no collection whose state has none, or that has just joined the one of its state, makes the collections
agree. -/
theorem joinCollection_agree {t : TrayId} {st : TrayState} (hst : (s.tray t).state = st) (hi : st ≠ .inrush)
    (h : s.collectionsBut t) : (joinCollection t st s).collectionsAgree := by
  obtain ⟨h1, h2, h3, h4, h5, h6⟩ := h
  have other {st' : TrayState} (hne : st ≠ st') (n : TrayId) :
      (n ≠ t ∧ (s.tray n).state = st') ↔ (s.tray n).state = st' :=
    ⟨And.right, fun hn => ⟨fun e => hne (hst.symm.trans (e ▸ hn)), hn⟩⟩
  have own (n : TrayId) : (n ≠ t ∧ (s.tray n).state = st) ∨ n = t ↔ (s.tray n).state = st := by
    by_cases hn : n = t
    · simp [hn, hst]
    · simp [hn]
  rw [collectionsAgree_iff]
  unfold joinCollection
  split
  · simp only [enqueue_queue, enqueue_park, enqueue_slotTrays, tray_congr (enqueue_trays t s)]
    refine ⟨?_, h2, fun n => ?_, fun n => (h4 n).trans (other (by decide) n), fun n => (h5 n).trans (other hi n), h6⟩
    · exact List.Nodup.append h1 (List.nodup_singleton t) (by simp [h3])
    · rw [List.mem_append, List.mem_singleton, h3]
      exact own n
  · have hp := insertBy_perm s.parkBefore t s.park
    refine ⟨h1, ?_, fun n => (h3 n).trans (other (by decide) n), fun n => ?_, fun n => (h5 n).trans (other hi n), h6⟩
    · exact hp.nodup_iff.mpr (List.nodup_cons.mpr ⟨by simp [h4], h2⟩)
    · rw [hp.mem_iff, List.mem_cons, h4, or_comm]
      exact own n
  · rename_i hq hp
    exact ⟨h1, h2, fun n => (h3 n).trans (other hq n), fun n => (h4 n).trans (other hp n),
      fun n => (h5 n).trans (other hi n), h6⟩

/-- A tray in no collection that takes a free slot in INRUSH makes the collections agree. -/
theorem armWindow_agree {t : TrayId} {j : SlotId} (code : Fin 4) (hst : (s.tray t).state = .inrush)
    (hj : s.seq.slots[j] = none) (h : s.collectionsBut t) : (armWindow j t code s).collectionsAgree := by
  obtain ⟨h1, h2, h3, h4, h5, h6⟩ := h
  have other {st' : TrayState} (hne : st' ≠ .inrush) (n : TrayId) :
      (n ≠ t ∧ (s.tray n).state = st') ↔ (s.tray n).state = st' :=
    ⟨And.right, fun hn => ⟨fun e => hne (hn.symm.trans (e ▸ hst)), hn⟩⟩
  have slot (k : SlotId) : (armWindow j t code s).slotTrays[k] = if j = k then some t else s.slotTrays[k] := by
    simp only [State.slotTrays, armWindow, Fin.getElem_fin, Vector.getElem_map, Vector.getElem_set, Fin.ext_iff]
    split <;> rfl
  have hjn : s.slotTrays[j] = none := by rw [slotTrays_get, hj]; rfl
  rw [collectionsAgree_iff]
  refine ⟨h1, h2, fun n => (h3 n).trans (other (by decide) n), fun n => (h4 n).trans (other (by decide) n),
    fun n => ?_, fun k l n hk hl => ?_⟩
  · show _ ↔ (s.tray n).state = _
    simp only [slot]
    by_cases hn : n = t
    · subst hn
      exact ⟨fun _ => hst, fun _ => ⟨j, if_pos rfl⟩⟩
    · have : (∃ k, (if j = k then some t else s.slotTrays[k]) = some n) ↔ ∃ k : SlotId, s.slotTrays[k] = some n := by
        refine exists_congr fun k => ?_
        split
        · rename_i e
          subst e
          simp [hjn, Ne.symm hn]
        · rfl
      rw [this, h5]
      exact ⟨And.right, fun hs => ⟨hn, hs⟩⟩
  · have mine (k : SlotId) (hk : s.slotTrays[k] = some t) : False := ((h5 t).mp ⟨k, hk⟩).1 rfl
    rw [slot] at hk hl
    by_cases hjk : j = k <;> by_cases hjl : j = l
    · exact hjk.symm.trans hjl
    · rw [if_pos hjk] at hk
      rw [if_neg hjl, ← hk] at hl
      exact absurd hl (mine l)
    · rw [if_pos hjl] at hl
      rw [if_neg hjk, ← hl] at hk
      exact absurd hk (mine k)
    · rw [if_neg hjk] at hk
      rw [if_neg hjl] at hl
      exact h6 k l n hk hl

/-! ### The moves -/

/-- A move but for the collection that its tray joins. -/
def leaveAndPut (t : TrayId) (st : TrayState) (g : Nat) (c : Option FaultCause) (s : State) : State :=
  let s := if (s.tray t).overCap && !st.keepsMarks then overCapCleared t s else s
  (leaveCollection t s).putTray t (((leaveCollection t s).tray t).enter st g c)

theorem moveBare_eq (t : TrayId) (st : TrayState) (g : Nat) (c : Option FaultCause) (s : State) :
    moveBare t st g c s = joinCollection t st (leaveAndPut t st g c s) := rfl

theorem leaveAndPut_but (t : TrayId) (st : TrayState) (g : Nat) (c : Option FaultCause) (h : s.collectionsAgree) :
    (leaveAndPut t st g c s).collectionsBut t := by
  have put (v : State) (hv : v.collectionsAgree) (r : Tray) :
      ((leaveCollection t v).putTray t r).collectionsBut t := by
    refine collectionsBut_congr (s := leaveCollection t v) rfl rfl rfl (fun n hn => ?_) (leaveCollection_but t hv)
    rw [putTray_tray, if_neg hn]
  unfold leaveAndPut
  dsimp only
  split
  · exact put (overCapCleared t s) h _
  · exact put s h _

theorem leaveAndPut_state (t : TrayId) (st : TrayState) (g : Nat) (c : Option FaultCause) (s : State) :
    ((leaveAndPut t st g c s).tray t).state = st := by
  unfold leaveAndPut
  rw [putTray_tray_self]
  rfl

theorem moveBare_collectionsAgree (t : TrayId) {st : TrayState} (g : Nat) (c : Option FaultCause) (hst : st ≠ .inrush)
    (h : s.collectionsAgree) : (moveBare t st g c s).collectionsAgree :=
  joinCollection_agree (leaveAndPut_state ..) hst (leaveAndPut_but t st g c h)

/-- A QUEUED tray holds no slot, so its leaving the queue leaves the slots alone. -/
theorem moveBare_slots_of_queued {t : TrayId} (g : Nat) (c : Option FaultCause) (hq : (s.tray t).state = .queued) :
    (moveBare t .inrush g c s).seq.slots = s.seq.slots := by
  have leave (v : State) (hv : v.trays = s.trays) : (leaveCollection t v).seq.slots = v.seq.slots := by
    have : (v.tray t).state = .queued := by rw [tray_congr hv, hq]
    unfold leaveCollection
    rw [this]
    dsimp only
    unfold dequeue
    dsimp only
    split <;> rfl
  rw [moveBare_eq]
  show (leaveAndPut t .inrush g c s).seq.slots = _
  unfold leaveAndPut
  dsimp only
  split
  · exact leave _ rfl
  · exact leave _ rfl

/-- A start puts its tray into the slot it takes. -/
theorem started_collectionsAgree {t : TrayId} {j : SlotId} (code : Fin 4) (g : Nat) (hq : (s.tray t).state = .queued)
    (hj : s.seq.slots[j] = none) (h : s.collectionsAgree) :
    (armWindow j t code (moveBare t .inrush g none s)).collectionsAgree := by
  refine armWindow_agree code ?_ ?_ ?_
  · rw [moveBare_tray, if_pos rfl]
    rfl
  · rw [moveBare_slots_of_queued g none hq, hj]
  · exact leaveAndPut_but t .inrush g none h

theorem putTray_collectionsAgree {t : TrayId} {r : Tray}
    (hc : r.state = (s.tray t).state ∨ r.state.collection = 0 ∧ (s.tray t).state.collection = 0)
    (h : s.collectionsAgree) : (s.putTray t r).collectionsAgree := by
  have state (st : TrayState) (hst : st.collection ≠ 0) (n : TrayId) :
      ((s.putTray t r).tray n).state = st ↔ (s.tray n).state = st := by
    rw [putTray_tray]
    split
    · rename_i e
      rw [e]
      rcases hc with hc | ⟨h1, h2⟩
      · rw [hc]
      · exact ⟨fun e => absurd (e ▸ h1) hst, fun e => absurd (e ▸ h2) hst⟩
    · rfl
  rw [collectionsAgree_iff] at h ⊢
  simp only [state _ (show TrayState.queued.collection ≠ 0 by decide), state _ (show TrayState.parked.collection ≠ 0 by decide),
    state _ (show TrayState.inrush.collection ≠ 0 by decide)]
  exact h

theorem setSlot_slotTrays (j : SlotId) (v v' : Slot) (hv : s.seq.slots[j] = some v) (ht : v'.tray = v.tray) :
    (s.setSlot j (some v')).slotTrays = s.slotTrays := by
  refine Vector.ext fun i hi => ?_
  simp only [State.slotTrays, State.setSlot, Vector.getElem_map, Vector.getElem_set, Fin.getElem_fin] at hv ⊢
  split
  · rename_i e
    subst e
    rw [hv]
    simp [ht]
  · rfl

/-- Every move keeps the collections the sets of the trays in their states. -/
theorem Evolves.collectionsAgree (h : Evolves s u) (hs : s.collectionsAgree) : u.collectionsAgree := by
  induction h with
  | refl | agenda | pace | entry | alarm | drawn | reported | holdup | basis | due => exact hs
  | trans _ _ h h' => exact h' (h hs)
  | trapped x s =>
    unfold trapFailure
    split <;> exact hs
  | sorted s => exact collectionsAgree_congr (s := s) rfl (sortBy_perm ..) rfl (fun _ => rfl) hs
  | mark t r s hst _ _ =>
    refine collectionsAgree_congr (s := s) rfl (.refl _) rfl (fun n => ?_) hs
    rw [setRecord_tray]
    split
    · rename_i e
      rw [e, hst]
    · rfl
  | put t r s hc h0 _ =>
    refine putTray_collectionsAgree ?_ hs
    rcases h0 with h0 | h0
    · exact Or.inr ⟨h0, hc.symm.trans h0⟩
    · exact Or.inl h0
  | moved t st g c s hst _ _ => exact moveBare_collectionsAgree t g c hst hs
  | started t j code g s hq hj => exact started_collectionsAgree code g hq hj hs
  | judged j v rep s hv =>
    exact collectionsAgree_congr (s := s) rfl (.refl _) (setSlot_slotTrays j v _ hv rfl) (fun _ => rfl) hs

/-- An accepted SET_TRAY leaves its tray's state, or changes it between IDLE and ISOLATED. -/
theorem rewriteState_cases (r : Tray) (b : Bool) : rewriteState r b = r.state ∨
    (rewriteState r b = .idle ∨ rewriteState r b = .isolated) ∧ (r.state = .idle ∨ r.state = .isolated) := by
  unfold rewriteState
  cases r.state <;> simp

/-- What runs in a command keeps each collection the set of the trays in its state. -/
theorem Runs.collectionsAgree (h : Runs w s u) (hs : s.collectionsAgree) : u.collectionsAgree := by
  induction h with
  | trans _ _ h h' => exact h' (h hs)
  | evolves h => exact h.collectionsAgree hs
  | aside h =>
    exact collectionsAgree_congr h.queue (h.park ▸ .refl _) h.slots (fun n => by rw [tray_congr h.trays]) hs
  | latched => exact hs
  | rewritten t c b s _ =>
    refine putTray_collectionsAgree ?_ hs
    refine (rewriteState_cases (s.tray t) b).imp_right fun ⟨hn, ho⟩ => ⟨?_, ?_⟩
    · show (rewriteState (s.tray t) b).collection = 0
      rcases hn with hn | hn <;> rw [hn] <;> rfl
    · rcases ho with ho | ho <;> rw [ho] <;> rfl
  | repaired t st s hf hst =>
    refine putTray_collectionsAgree (Or.inr ⟨?_, by rw [hf]; rfl⟩) hs
    rcases hst with rfl | rfl <;> rfl

end Sys2Proof.Machine
end

section
/-! SUPPORT. The changes beside the rack, one lemma for each part of the state, and what the shared operations of the requests
and of the events run. -/

namespace Sys2Proof.Machine

variable {w : Part → Bool} {s u : State}

/-! ### One part at a time -/

/-- A part that no port record holds. -/
def Part.ofUnit : Part → Bool
  | .masks _ | .lease _ | .answer _ => false
  | _ => true

/-- What an aside leaves as it was, read as one value. -/
def State.rack (s : State) :=
  (s.sup.held, s.trays, s.queue, s.park, s.slotTrays, s.acct.committed, s.hold.enable, s.hold.closed, s.hold.leakLatch,
    s.journal.entries, fun z => (s.zone z).state == .leak)

/-- A change of one part beside the rack and the ports. -/
theorem Aside.ofUnit (x₀ : Part) (hw : w x₀ = true) (hA : u.portA = s.portA) (hB : u.portB = s.portB)
    (hr : u.rack = s.rack) (hx : ∀ x : Part, x ≠ x₀ → x.ofUnit = true → x.same s u) : Aside w s u := by
  have port (p : Port) : u.port p = s.port p := by cases p <;> assumption
  simp only [State.rack, Prod.mk.injEq] at hr
  obtain ⟨h1, h2, h3, h4, h5, h6, h7, h8, h9, h10, h11⟩ := hr
  refine ⟨fun x h => ?_, h1, h2, h3, h4, h5, h6, h7, h8, h9, congrFun h11, h10, by rw [hA], by rw [hB]⟩
  have ne : x ≠ x₀ := fun e => absurd (hw.symm.trans (e ▸ h)) (by decide)
  cases x with
  | masks p => simp only [Part.same, port]
  | lease p => simp only [Part.same, port]
  | answer p => simp only [Part.same, port]
  | _ => exact hx _ ne rfl

/-- A change beside the rack, the ports and every part. -/
theorem Aside.ofNone (hA : u.portA = s.portA) (hB : u.portB = s.portB) (hr : u.rack = s.rack)
    (hx : ∀ x : Part, x.ofUnit = true → x.same s u) : Aside w s u := by
  have h := Aside.ofUnit (w := fun x => w x || !x.ofUnit) (.masks .a) (by simp [Part.ofUnit]) hA hB hr fun x _ => hx x
  have port (p : Port) : u.port p = s.port p := by cases p <;> assumption
  refine { h with parts := fun x hwx => ?_ }
  cases x with
  | masks p => simp only [Part.same, port]
  | lease p => simp only [Part.same, port]
  | answer p => simp only [Part.same, port]
  | _ => exact hx _ rfl

theorem pins_aside (hw : w .pins = true) (b : Bool) (s : State) :
    Aside w s { s with sup := { s.sup with pfailAsserted := b } } :=
  .ofUnit .pins hw rfl rfl rfl fun x hx hu => by
    cases x with
    | pins => exact absurd rfl hx
    | masks | lease | answer => exact absurd hu Bool.false_ne_true
    | _ => rfl

theorem shelf_aside (hw : w .shelf = true) (r a : Bool) (s : State) :
    Aside w s { s with acct := { s.acct with redundancy := r, autoRestart := a } } :=
  .ofUnit .shelf hw rfl rfl rfl fun x hx hu => by
    cases x with
    | shelf => exact absurd rfl hx
    | masks | lease | answer => exact absurd hu Bool.false_ne_true
    | _ => rfl

theorem leak_aside (hw : w .leak = true) (l : Leak) (s : State)
    (hl : ∀ z : ZoneId, ((l.zones[z]).state == .leak) = ((s.zone z).state == .leak)) :
    Aside w s { s with leak := l } :=
  .ofUnit .leak hw rfl rfl
    (by simp only [State.rack, Prod.mk.injEq, true_and]; exact ⟨rfl, funext hl⟩) fun x hx hu => by
    cases x with
    | leak => exact absurd rfl hx
    | masks | lease | answer => exact absurd hu Bool.false_ne_true
    | _ => rfl

theorem sense_aside (hw : w .sense = true) (x : Sense) (s : State) : Aside w s { s with sense := x } :=
  .ofUnit .sense hw rfl rfl rfl fun x hx hu => by
    cases x with
    | sense => exact absurd rfl hx
    | masks | lease | answer => exact absurd hu Bool.false_ne_true
    | _ => rfl

theorem stations_aside (hw : w .stations = true) (v : Vector Station 42) (s : State) :
    Aside w s { s with link := { s.link with stations := v } } :=
  .ofUnit .stations hw rfl rfl rfl fun x hx hu => by
    cases x with
    | stations => exact absurd rfl hx
    | masks | lease | answer => exact absurd hu Bool.false_ne_true
    | _ => rfl

theorem poll_aside (hw : w .poll = true) (q : Option Poll) (t : Option Nat) (n : Half) (s : State) :
    Aside w s { s with link := { s.link with outstanding := q, replyTimer := t, rounds := n } } :=
  .ofUnit .poll hw rfl rfl rfl fun x hx hu => by
    cases x with
    | poll => exact absurd rfl hx
    | masks | lease | answer => exact absurd hu Bool.false_ne_true
    | _ => rfl

theorem cutoff_aside (hw : w .cutoff = true) (n : Nat) (s : State) :
    Aside w s { s with hup := { s.hup with cutoff := n } } :=
  .ofUnit .cutoff hw rfl rfl rfl fun x hx hu => by
    cases x with
    | cutoff => exact absurd rfl hx
    | masks | lease | answer => exact absurd hu Bool.false_ne_true
    | _ => rfl

theorem timing_aside (hw : w .timing = true) (mode : PaceMode) (f : TimingFields) (s : State) :
    Aside w s { s with
      seq := { s.seq with
        paceMode := mode, paceInterval := f.interval.toNat, k := f.k.toNat
        w0 := f.w0.toNat, w1 := f.w1.toNat, w2 := f.w2.toNat }
      hup := { s.hup with
        s1 := f.s1.toNat, s2 := f.s2.toNat, s3 := f.s3.toNat, qualification := f.qualification.toNat }
      link := { s.link with replyTimeout := f.reply.toNat } } :=
  .ofUnit .timing hw rfl rfl rfl fun x hx hu => by
    cases x with
    | timing => exact absurd rfl hx
    | masks | lease | answer => exact absurd hu Bool.false_ne_true
    | _ => rfl

theorem plan_aside (hw : w .plan = true) (plan : List PlanEntry) (rev : Byte) (keys : Vector Nat 32) (s : State) :
    Aside w s { s with seq := { s.seq with plan := plan, planRev := rev, keys := keys } } :=
  .ofUnit .plan hw rfl rfl rfl fun x hx hu => by
    cases x with
    | plan => exact absurd rfl hx
    | masks | lease | answer => exact absurd hu Bool.false_ne_true
    | _ => rfl

theorem setStaging_aside (hw : w .staging = true) (g : Staging) (s : State) : Aside w s (setStaging g s) :=
  .ofUnit .staging hw rfl rfl rfl fun x hx hu => by
    cases x with
    | staging => exact absurd rfl hx
    | masks | lease | answer => exact absurd hu Bool.false_ne_true
    | _ => rfl

theorem store_aside (hw : w .store = true) (x : Store) (s : State) : Aside w s { s with store := x } :=
  .ofUnit .store hw rfl rfl rfl fun x hx hu => by
    cases x with
    | store => exact absurd rfl hx
    | masks | lease | answer => exact absurd hu Bool.false_ne_true
    | _ => rfl

theorem capacities_aside (shelf battery : Nat) (mode : AccountMode) (s : State) :
    Aside w s { s with acct := { s.acct with shelf := shelf, battery := battery, mode := mode } } :=
  .ofNone rfl rfl rfl fun x hu => by
    cases x with
    | masks | lease | answer => exact absurd hu Bool.false_ne_true
    | _ => rfl

theorem trap_aside (r : Trap) (s : State) : Aside w s { s with trap := r } :=
  .ofNone rfl rfl rfl fun x hu => by
    cases x with
    | masks | lease | answer => exact absurd hu Bool.false_ne_true
    | _ => rfl

/-! ### The ports -/

/-- A change of a port's flags, released marks, cursor or gap flag, with the cursor no further back. -/
theorem setPort_flags_aside (p : Port) (r : PortRec) (s : State) (hu : r.unread ≤ (s.port p).unread)
    (hr : r.service = (s.port p).service) : Aside w s (s.setPort p r) := by
  simp only [PortRec.service, Prod.mk.injEq] at hr
  exact setPort_aside p r s hu (fun _ => by simp only [hr]) (fun _ => by simp only [hr]) (fun _ => by simp only [hr])

theorem raiseOverrun_aside (p : Port) (s : State) : Aside w s (raiseOverrun p s) :=
  setPort_flags_aside p _ s (Nat.le_refl _) rfl

theorem releaseAll_aside (s : State) : Aside w s (s.mapPorts PortRec.releaseAll) :=
  (setPort_flags_aside .a s.portA.releaseAll s (Nat.le_refl _) rfl).trans
    (setPort_flags_aside .b s.portB.releaseAll _ (Nat.le_refl _) rfl)

theorem respond_aside {p : Port} (hw : w (.answer p) = true) (tag : Byte) (a : Answer) (s : State) :
    Aside w s (respond p tag a s) :=
  setPort_aside p _ s (Nat.le_refl _) (fun _ => rfl) (fun _ => rfl) fun h => absurd (hw.symm.trans h) (by decide)

theorem setLease_aside {p : Port} (hw : w (.lease p) = true) (l : Option Lease) (s : State) : Aside w s (setLease p l s) :=
  setPort_aside p _ s (Nat.le_refl _) (fun _ => rfl) (fun h => absurd (hw.symm.trans h) (by decide)) fun _ => rfl

/-- A port takes a request: refused, or its body runs. -/
theorem portTake_runs {p : Port} (hw : w (.answer p) = true) (tag : Byte) (n : Bool) (body : State → State) (s : State)
    (hb : Runs w s (body s)) : Runs w s (portTake p tag n body s) := by
  unfold portTake
  exact .ite (fun _ => .refl s) fun _ => .ite (fun _ => .aside (raiseOverrun_aside p s)) fun _ =>
    .ite (fun _ => .aside (respond_aside hw ..)) fun _ => hb

theorem takeRequest_runs {p : Port} (hw : w (.answer p) = true) (tag : Byte) (n : Bool) (body : State → State × Answer)
    (s : State) (hb : Runs w s (body s).1) : Runs w s (takeRequest p tag n body s) :=
  portTake_runs hw tag n _ s (hb.trans (.aside (respond_aside hw ..)))

theorem answerAfter_runs (st : Status) (payload : State → List Byte) (h : Runs w s u) :
    Runs w s (answerAfter st payload u).1 := h.trans (.evolves (finish_evolves u))

theorem journalise_runs (k : Kind) (a : Option Subject) (v : Option Nat) (r : Option Reason) (s : State) :
    Runs w s (journalise k a v r s) := .evolves (.entry ..)

theorem discardStaging_runs (hw : w .staging = true) (p : Port) (r : Reason) (s : State) :
    Runs w s (discardStaging p r s) :=
  .ite (fun _ => (Runs.aside (setStaging_aside hw _ s)).trans (journalise_runs ..)) fun _ => .refl s

/-! ### Zones, latches and leaks -/

theorem setZone_aside (hw : w .leak = true) (z : ZoneId) (r : Zone) (s : State)
    (hr : (r.state == .leak) = ((s.zone z).state == .leak)) : Aside w s (s.setZone z r) := by
  refine leak_aside hw _ s fun y => ?_
  simp only [Fin.getElem_fin, Vector.getElem_set]
  split
  · rename_i e
    rw [hr, show z = y from Fin.ext e]
  · rfl

theorem isolateIfInZone_evolves (z : ZoneId) (s : State) (t : TrayId) : Evolves s (isolateIfInZone z s t) :=
  (checkReadIn_evolves (some z) t s).trans (.ite (isolate_evolves ..) (.refl _))

theorem enterLeak_runs (hw : w .leak = true) (z : ZoneId) (s : State) : Runs w s (enterLeak z s).1 := by
  unfold enterLeak
  dsimp only
  exact (Runs.latched z true { s.zone z with state := .leak } s hw rfl).trans
    (.evolves (.foldl (isolateIfInZone_evolves z) allTrays _))

theorem readMark_evolves (marks : Vector Bool 32) (s : State) (t : TrayId) : Evolves s (readMark marks s t) := by
  unfold readMark
  refine .ite ((checkRead_evolves t s).trans (.ite ?_ (.ite ?_ (.refl _)))) (.refl s) <;>
    exact .trans (.entry ..) (.alarm ..)

theorem setZone_zone_self (z : ZoneId) (r : Zone) (s : State) : (s.setZone z r).zone z = r := by
  simp [State.setZone, State.zone]

theorem holdLifted_if_evolves (s : State) (t : TrayId) :
    Evolves s (if liftedFrom true t s then holdLifted t s else s) := .ite (holdLifted_evolves t s) (.refl s)

theorem countWet_runs (hw : w .leak = true) (z : ZoneId) (source : LeakSource) (s : State)
    (hz : ((s.zone z).state == .leak) = false) : Runs w s (countWet z source s) := by
  unfold countWet
  dsimp only
  generalize (if (s.zone z).state == .opened then 1 else (s.zone z).wetCount + 1) = n
  have h1 : Runs w s (s.setZone z { s.zone z with wetCount := n }) := .aside (setZone_aside hw z _ s rfl)
  refine h1.trans (.ite (fun _ => ?_) fun _ => .ite (fun _ => .refl _) fun _ => ?_)
  · exact ((enterLeak_runs hw z _).trans (journalise_runs ..)).trans (.evolves (.alarm ..))
  · refine ((Runs.aside (setZone_aside hw z _ _ ?_)).trans (journalise_runs ..)).trans (.evolves (.alarm ..))
    rw [setZone_zone_self]
    exact hz.symm

theorem becomeOpen_runs (hw : w .leak = true) (z : ZoneId) (s : State) (hz : ((s.zone z).state == .leak) = false) :
    Runs w s (becomeOpen z s) :=
  (Runs.aside (setZone_aside hw z { s.zone z with state := .opened, wetCount := 0 } s hz.symm)).trans
    (.ite (fun _ => .refl _) fun _ => (journalise_runs ..).trans (.evolves (.alarm ..)))

theorem becomeDry_runs (hw : w .leak = true) (z : ZoneId) (s : State) (hz : ((s.zone z).state == .leak) = false) :
    Runs w s (becomeDry z s) := by
  unfold becomeDry
  refine (Runs.aside (setZone_aside hw z { s.zone z with state := .dry, wetCount := 0 } s hz.symm)).trans
    (.ite (fun _ => .refl _) fun _ => ?_)
  exact (journalise_runs ..).trans (.evolves (.foldl holdLifted_if_evolves _ _))

theorem zoneTransition_runs (hw : w .leak = true) (cls : ZoneClass) (source : LeakSource) (z : ZoneId) (s : State) :
    Runs w s (zoneTransition cls source z s) := by
  unfold zoneTransition
  refine (Runs.aside (setZone_aside hw z { s.zone z with lastClass := some cls } s rfl)).trans
    (.ite (fun _ => .refl _) fun hz => ?_)
  replace hz := Bool.eq_false_iff.mpr hz
  cases cls with
  | wet => exact countWet_runs hw z source _ hz
  | opened => exact .ite (fun _ => countWet_runs hw z _ _ hz) fun _ => becomeOpen_runs hw z _ hz
  | dry => exact becomeDry_runs hw z _ hz

theorem judgeZone_runs (hw : w .leak = true) (judged : Vector (Option (ZoneClass × LeakSource)) 8) (s : State)
    (z : ZoneId) : Runs w s (judgeZone judged s z) := by
  unfold judgeZone
  split
  · exact zoneTransition_runs hw ..
  · exact .refl s

theorem leakClose_runs (hl : w .leak = true) (hs : w .sense = true) (s : State) : Runs w s (leakClose s) := by
  have h := (Runs.aside (leak_aside hl { s.leak with reporting := Vector.replicate 32 false } s fun _ => rfl)).trans
    (.evolves (.foldl (readMark_evolves s.leak.reporting) allTrays _))
  unfold leakClose
  dsimp only
  generalize allTrays.foldl (readMark s.leak.reporting) _ = u at h ⊢
  exact (h.trans (.aside (sense_aside hs _ u))).trans (.foldl (judgeZone_runs hl _) _ _)

/-! ### The census close -/

theorem publishBank_runs (hs : w .sense = true) (hst : w .stations = true) (s : State) : Runs w s (publishBank s) :=
  (Runs.aside (sense_aside hs (publishBank s).sense s)).trans
    (.aside (stations_aside hst (publishBank s).link.stations { s with sense := (publishBank s).sense }))

theorem holdupClose_evolves (s : State) : Evolves s (holdupClose s) :=
  .ite (.ite (enterDark_evolves ..) (.ite (enterDark_evolves ..) (.refl s))) (.refl s)

theorem busCondition_runs (outside was : Bool) (value : Nat) (entered ended : Reason) (write : Bool → State → State)
    (hw : ∀ v s, Runs w s (write v s)) (s : State) :
    Runs w s (busCondition outside was value entered ended write s) :=
  .ite (fun _ => (Runs.ite (fun _ => .refl s) fun _ => (hw ..).trans (journalise_runs ..)).trans (.evolves (.alarm ..)))
    fun _ => .ite (fun _ => (hw ..).trans (journalise_runs ..)) fun _ => .refl s

theorem busLimitClose_runs (hs : w .sense = true) (s : State) : Runs w s (busLimitClose s) := by
  have low (v : Bool) (s : State) : Runs w s (setLow v s) := .aside (sense_aside hs _ s)
  have high (v : Bool) (s : State) : Runs w s (setHigh v s) := .aside (sense_aside hs _ s)
  have highClose (s : State) : Runs w s (match s.busMax with
      | some v => busCondition (decide (s.sense.overLimit < v)) s.sense.high v .high .highCleared setHigh s
      | none => s) := by
    split
    · exact busCondition_runs _ _ _ _ _ _ high s
    · exact .refl s
  unfold busLimitClose
  split
  · exact (busCondition_runs _ _ _ _ _ _ low s).trans (highClose _)
  · exact highClose s

theorem censusClosed_runs (hl : w .leak = true) (hs : w .sense = true) (hst : w .stations = true) (s : State) :
    Runs w s (censusClosed s) :=
  (((((publishBank_runs hs hst s).trans (leakClose_runs hl hs _)).trans (.evolves (holdupClose_evolves _))).trans
    (busLimitClose_runs hs _)).trans (.evolves (finish_evolves _))).trans (.aside (releaseAll_aside _))

theorem converted_runs (hs : w .sense = true) (ch : ChannelId) (result : Option Half) (s : State) :
    Runs w s (converted ch result s) := by
  unfold converted
  dsimp only
  split <;> exact .aside (sense_aside hs _ s)

/-! ### Capacity claims -/

/-- A capacity claim up to its CAPACITY entry. -/
def capacityEntry (subject : Option Subject) (reason : Reason) (s : State) : State :=
  let v := setUsable { s with acct := { s.acct with shelf := s.shelfNow, battery := s.batteryNow } }
  if v.acct.shelf != s.acct.shelf || v.acct.battery != s.acct.battery then
    raise .capacity (journalise .capacity subject
      (some (if reason == .battery then v.acct.battery else v.acct.shelf)) (some reason) v)
  else v

/-- A capacity claim from its CAPACITY entry on, for the rack as it was before. -/
def capacityEffect (before s : State) : State :=
  if s.onBattery && s.acct.battery == 0 && before.acct.battery != 0 then enterDark .batteryExhausted s
  else
    let s := if s.acct.shelf != before.acct.shelf then regainTest s else s
    if s.hup.state != before.hup.state then s
    else
      let s := if s.acct.usable < before.acct.usable then shortfallIfDue s else s
      if before.headroom < s.headroom then admissionDue s else s

theorem capacityClaim_eq (subject : Option Subject) (reason : Reason) (s : State) :
    capacityClaim subject reason s = capacityEffect s (capacityEntry subject reason s) := rfl

theorem capacityEntry_runs (subject : Option Subject) (reason : Reason) (s : State) :
    Runs w s (capacityEntry subject reason s) := by
  have h : Runs w s (setUsable { s with acct := { s.acct with shelf := s.shelfNow, battery := s.batteryNow } }) :=
    .trans (.aside (capacities_aside s.shelfNow s.batteryNow s.acct.mode s)) (.evolves (.basis _))
  unfold capacityEntry
  exact .ite (fun _ => (h.trans (journalise_runs ..)).trans (.evolves (.alarm ..))) fun _ => h

theorem capacityEffect_evolves (before s : State) : Evolves s (capacityEffect before s) := by
  unfold capacityEffect
  refine .ite (enterDark_evolves ..) ?_
  have h : Evolves s (if (s.acct.shelf != before.acct.shelf) = true then regainTest s else s) :=
    .ite (regainTest_evolves s) (.refl s)
  dsimp only
  generalize (if (s.acct.shelf != before.acct.shelf) = true then regainTest s else s) = u at h ⊢
  refine .ite h (h.trans ?_)
  exact .trans (.ite (shortfallIfDue_evolves u) (.refl u)) (.ite (admissionDue_evolves _) (.refl _))

theorem capacityClaim_runs (subject : Option Subject) (reason : Reason) (s : State) :
    Runs w s (capacityClaim subject reason s) := by
  rw [capacityClaim_eq]
  exact (capacityEntry_runs subject reason s).trans (.evolves (capacityEffect_evolves s _))

/-! ### Polls and replies -/

theorem sendPoll_runs (hst : w .stations = true) (hp : w .poll = true) (a : StationId) (s : State) :
    Runs w s (sendPoll a s) := by
  have h : Runs w s (if (s.pollFor a).sent.isSome then
      s.setStation a { s.station a with lastPoll := (s.pollFor a).sent } else s) :=
    .ite (fun _ => .aside (stations_aside hst _ s)) fun _ => .refl s
  unfold sendPoll
  dsimp only
  generalize (if (s.pollFor a).sent.isSome then
      s.setStation a { s.station a with lastPoll := (s.pollFor a).sent } else s) = u at h ⊢
  exact h.trans (.aside (poll_aside hp _ _ u.link.rounds u))

theorem recoveringEnds_runs (s : State) : Runs w s (recoveringEnds s) := by
  have h : Runs w s (shortfallIfDue { s with acct := { s.acct with mode := .settled } }) :=
    .trans (.aside (capacities_aside s.acct.shelf s.acct.battery .settled s)) (.evolves (shortfallIfDue_evolves _))
  unfold recoveringEnds
  dsimp only
  generalize shortfallIfDue { s with acct := { s.acct with mode := .settled } } = u at h ⊢
  have h' : Evolves u (if u.isNormal = true then admissionPass u else u) := .ite (admissionPass_evolves u) (.refl u)
  generalize (if u.isNormal = true then admissionPass u else u) = v at h' ⊢
  exact h.trans (.evolves (((h'.trans (.agenda ..)).trans (opportunity_evolves _)).trans (.entry ..)))

/-- The round counter's step at a round end. -/
def countRound (s : State) : State :=
  let s := s.setAgenda { s.agenda with admission := false }
  { s with link := { s.link with rounds := s.link.rounds + 1 } }

/-- RECOVERING ends at a round end. -/
def recoverIfDue (s : State) : State := if s.acct.mode == .recovering then recoveringEnds s else s

theorem roundEnd_eq (s : State) : roundEnd s =
    if s.agenda.admission then admissionDue (automaticRun (endClaim (recoverIfDue (countRound s))))
    else automaticRun (endClaim (recoverIfDue (countRound s))) := rfl

theorem roundEnd_runs (hp : w .poll = true) (s : State) : Runs w s (roundEnd s) := by
  have h1 : Runs w s (countRound s) :=
    .trans (.evolves (.agenda ..)) (.aside (poll_aside hp s.link.outstanding s.link.replyTimer _ _))
  have h2 : Runs w (countRound s) (recoverIfDue (countRound s)) := .ite (fun _ => recoveringEnds_runs _) fun _ => .refl _
  have h3 := (h1.trans h2).trans (.evolves ((endClaim_evolves _).trans (automaticRun_evolves _)))
  rw [roundEnd_eq]
  exact .ite (fun _ => h3.trans (.evolves (admissionDue_evolves _))) fun _ => h3

theorem pollEnded_runs (hst : w .stations = true) (hp : w .poll = true) (a : StationId) (s : State) :
    Runs w s (pollEnded a s) := by
  have h : Runs w s (if a = 31 then roundEnd s else endClaim s) :=
    .ite (fun _ => roundEnd_runs hp s) fun _ => .evolves (endClaim_evolves s)
  exact (h.trans (.evolves (finish_evolves _))).trans (sendPoll_runs hst hp ..)

theorem claimIfChanged_runs (a : StationId) (was : Option Nat) (s : State) : Runs w s (claimIfChanged a was s) :=
  .ite (fun _ => .refl s) fun _ => capacityClaim_runs ..

theorem miss_runs (hst : w .stations = true) (a : StationId) (s : State) : Runs w s (miss a s) := by
  unfold miss
  dsimp only
  generalize (if min 3 ((s.station a).misses + 1) = 3 then
      (if s.outputEnabled a then Presence.silent else .absent) else (s.station a).presence) = x
  refine .trans ?_ (claimIfChanged_runs ..)
  refine .trans (.aside (stations_aside hst _ s)) (.ite (fun _ => .refl _) fun _ => .ite (fun _ => ?_) fun _ => ?_)
  · exact (journalise_runs ..).trans (.evolves (.alarm ..))
  · exact journalise_runs ..

theorem trayHandOn_runs (hl : w .leak = true) (t : TrayId) (q : Poll) (pg fault ll : Bool) (demand : Nat) (s : State) :
    Runs w s (trayHandOn t q pg fault ll demand s) := by
  have h : Runs w s (if ll then { s with leak := { s.leak with reporting := s.leak.reporting.set t true } } else s) :=
    .ite (fun _ => .aside (leak_aside hl _ s fun _ => rfl)) fun _ => .refl s
  unfold trayHandOn
  dsimp only
  generalize (if ll then { s with leak := { s.leak with reporting := s.leak.reporting.set t true } } else s) = u at h ⊢
  refine h.trans (.evolves ?_)
  split
  · exact .refl u
  · rename_i polled _ _
    have h1 : Evolves u (if (fault && polled.keepsMarks) = true then endClaim (faultReport t polled u) else u) :=
      .ite ((faultReport_evolves ..).trans (endClaim_evolves _)) (.refl u)
    generalize (if (fault && polled.keepsMarks) = true then endClaim (faultReport t polled u) else u) = v at h1 ⊢
    refine h1.trans ?_
    have h2 : Evolves v (if polled.keepsMarks = true then endClaim (selfRequest t polled demand v)
        else if (polled == .idle && decide (0 < demand)) = true then endClaim (selfStart t demand v) else v) := by
      split
      · exact (selfRequest_evolves t polled demand v ‹_›).trans (endClaim_evolves _)
      · exact .ite ((selfStart_evolves ..).trans (endClaim_evolves _)) (.refl v)
    generalize (if polled.keepsMarks = true then endClaim (selfRequest t polled demand v)
        else if (polled == .idle && decide (0 < demand)) = true then endClaim (selfStart t demand v) else v) = x at h2 ⊢
    exact h2.trans (.ite ((powerGoodReport_evolves ..).trans (endClaim_evolves _)) (.refl x))

theorem takeReply_runs (hst : w .stations = true) (hl : w .leak = true) (q : Poll) (reply : Reply) (s : State) :
    Runs w s (takeReply q reply s) := by
  unfold takeReply
  dsimp only
  generalize (if h : q.address.val < 32 then s.held ⟨q.address.val, h⟩ else false) = wasHeld
  have h : Runs w s (s.setStation q.address
      { s.station q.address with last := some reply, replied := true, misses := 0, presence := .present }) :=
    .aside (stations_aside hst _ s)
  generalize s.setStation q.address
    { s.station q.address with last := some reply, replied := true, misses := 0, presence := .present } = u at h ⊢
  refine h.trans ?_
  have h' : Runs w u (if ((s.station q.address).presence == .present) = true then u else journalise .stationFound
      (some (.station q.address)) none (some (.number (s.station q.address).presence.code)) u) :=
    .ite (fun _ => .refl u) fun _ => journalise_runs ..
  generalize (if ((s.station q.address).presence == .present) = true then u else journalise .stationFound
      (some (.station q.address)) none (some (.number (s.station q.address).presence.code)) u) = v at h' ⊢
  refine h'.trans ?_
  split
  · have h2 (t : TrayId) : Runs w v (match reply with
        | .tray pg f ll d => trayHandOn t q pg f ll d v
        | _ => v) := by
      split
      · exact trayHandOn_runs hl ..
      · exact .refl v
    exact (h2 _).trans (.ite (fun _ => .evolves (holdLifted_evolves ..)) fun _ => .refl _)
  · exact claimIfChanged_runs ..

theorem emptyPoll_runs (hp : w .poll = true) (s : State) : Runs w s (emptyPoll s) :=
  .aside (poll_aside hp none none s.link.rounds s)

theorem replyReceived_runs (hst : w .stations = true) (hp : w .poll = true) (hl : w .leak = true) (bytes : List Byte)
    (s : State) : Runs w s (replyReceived bytes s) := by
  unfold replyReceived
  split
  · dsimp only
    refine (emptyPoll_runs hp s).trans (.trans ?_ (pollEnded_runs hst hp _ _))
    split
    · exact takeReply_runs hst hl ..
    · exact miss_runs hst ..
  · exact .refl s

theorem replyTimedOut_runs (hst : w .stations = true) (hp : w .poll = true) (s : State) :
    Runs w s (replyTimedOut s) := by
  unfold replyTimedOut
  split
  · exact ((emptyPoll_runs hp s).trans (miss_runs hst ..)).trans (pollEnded_runs hst hp ..)
  · exact .refl s

/-! ### The timers and the pins -/

theorem paceExpired_evolves (s : State) : Evolves s (paceExpired s) := by
  unfold paceExpired
  refine .ite (.refl s) ?_
  split
  · exact ((Evolves.pace none s).trans (opportunity_evolves _)).trans (finish_evolves _)
  · exact ((Evolves.pace _ s).trans (cadenceStart_evolves _)).trans (finish_evolves _)

theorem windowExpired_evolves (j : SlotId) (s : State) : Evolves s (windowExpired j s) :=
  .ite ((windowEnd_evolves j s).trans (finish_evolves _)) (.refl s)

theorem acLost_evolves (s : State) : Evolves s (acLost s) := by
  unfold acLost
  split
  · exact .ite ((enterDark_evolves ..).trans (finish_evolves _)) ((enterHoldup_evolves s).trans (finish_evolves _))
  · exact .ite ((enterDark_evolves ..).trans (finish_evolves _)) ((resumeHoldup_evolves s).trans (finish_evolves _))
  · exact .refl s
  · exact .refl s

theorem acReturned_evolves (s : State) : Evolves s (acReturned s) := by
  unfold acReturned
  split
  · exact (enterWarmRegain_evolves s).trans (finish_evolves _)
  · exact (enterColdRegain_evolves s).trans (finish_evolves _)
  · exact .refl s
  · exact .refl s

theorem coreEvent_runs {f : State → State} (s : State) (h : Runs w s (f s)) : Runs w s (coreEvent f s) :=
  .ite (fun _ => .refl s) fun _ => h

theorem pfailRise_runs (hw : w .pins = true) (s : State) : Runs w s (pfailRise s) :=
  .ite (fun _ => .refl s) fun _ => (Runs.aside (pins_aside hw true s)).trans (coreEvent_runs _ (.evolves (acLost_evolves _)))

theorem pfailFall_runs (hw : w .pins = true) (s : State) : Runs w s (pfailFall s) :=
  .ite (fun _ => (Runs.aside (pins_aside hw false s)).trans (coreEvent_runs _ (.evolves (acReturned_evolves _))))
    fun _ => .refl s

theorem qualificationExpired_evolves (s : State) : Evolves s (qualificationExpired s) := by
  unfold qualificationExpired
  refine .ite (.refl s) ?_
  have h : Evolves s (s.setHup { s.hup with qualTimer := none }) := .holdup _ s rfl rfl rfl rfl rfl
  dsimp only
  generalize s.setHup { s.hup with qualTimer := none } = u at h ⊢
  refine h.trans (.ite ((enterNormal_evolves u).trans (finish_evolves _)) ?_)
  exact .trans (.holdup { u.hup with qualified := true } u rfl rfl rfl rfl rfl) (.entry ..)

theorem stageTicked_evolves (s : State) : Evolves s (stageTicked s) := by
  unfold stageTicked
  refine .ite (.refl s) ?_
  refine .trans (.trans ?_ (advanceStages_evolves 3 _)) (finish_evolves _)
  exact .holdup _ s rfl rfl rfl rfl rfl

theorem censusExpired_runs (hl : w .leak = true) (hs : w .sense = true) (hst : w .stations = true) (s : State) :
    Runs w s (censusExpired s) := .ite (fun _ => .refl s) fun _ => censusClosed_runs hl hs hst s

end Sys2Proof.Machine
end

section
/-! SUPPORT. The parts that each command may write, and every command that is no supply or reset event as what Runs allows
it. -/

namespace Sys2Proof.Machine

/-- The parts that a command may write. -/
def writes (i : Instr) : Part → Bool
  | .pending | .record => false
  | .pins => match i with | .pfailAsserted | .pfailDeasserted => true | _ => false
  | .config => match i with | .setTray .. => true | _ => false
  | .shelf => match i with | .setShelf .. => true | _ => false
  | .leak => match i with | .setLimits .. | .clearZone .. | .censusClose | .replyFrame _ => true | _ => false
  | .sense => match i with | .setLimits .. | .setTiming .. | .conversion .. | .censusClose => true | _ => false
  | .stations => match i with | .replyFrame _ | .replyTimeout | .censusClose => true | _ => false
  | .poll => match i with | .replyFrame _ | .replyTimeout => true | _ => false
  | .cutoff => match i with | .setLimits .. => true | _ => false
  | .timing => match i with | .setTiming .. => true | _ => false
  | .plan => match i with | .planCommit .. => true | _ => false
  | .staging => match i with
    | .planOpen .. | .planPoint .. | .planPut .. | .planLength .. | .planCommit .. | .planAbort .. | .dropLease ..
    | .leaseLapsed _ => true
    | _ => false
  | .store => match i with | .saveConfig .. | .storeWriteComplete => true | _ => false
  | .masks p => match i with | .setAlerts q .. => q == p | _ => false
  | .lease p => match i with
    | .claimLease q .. | .renewLease q _ | .dropLease q _ | .leaseLapsed q => q == p
    | _ => false
  | .answer p => i == .storeWriteComplete || sender i == some p

variable {w : Part → Bool} {s u : State}

/-! ### The requests -/

theorem statusRequest_runs {p : Port} (hw : w (.answer p) = true) (tag part : Byte) (s : State) :
    Runs w s (statusRequest p tag part s) := by
  refine takeRequest_runs hw _ _ _ s ?_
  split <;> exact .refl s

theorem trayRequest_runs {p : Port} (hw : w (.answer p) = true) (tag tray : Byte) (s : State) :
    Runs w s (trayRequest p tag tray s) := by
  refine takeRequest_runs hw _ _ _ s ?_
  split
  · exact answerAfter_runs _ _ (.evolves (checkRead_evolves ..))
  · exact .refl s

theorem stationRequest_runs {p : Port} (hw : w (.answer p) = true) (tag address : Byte) (s : State) :
    Runs w s (stationRequest p tag address s) := by
  refine takeRequest_runs hw _ _ _ s ?_
  split <;> exact .refl s

theorem zoneRequest_runs {p : Port} (hw : w (.answer p) = true) (tag zone : Byte) (s : State) :
    Runs w s (zoneRequest p tag zone s) := by
  refine takeRequest_runs hw _ _ _ s ?_
  split
  · exact answerAfter_runs _ _ (.evolves (readAll_evolves s))
  · exact .refl s

theorem planRequest_runs {p : Port} (hw : w (.answer p) = true) (tag part : Byte) (s : State) :
    Runs w s (planRequest p tag part s) := by
  refine takeRequest_runs hw _ _ _ s ?_
  dsimp only
  split
  · exact .evolves (reportEntries_evolves s)
  · exact .refl s
  · exact .refl s

theorem snapshotRequest_runs {p : Port} (hw : w (.answer p) = true) (tag part : Byte) (s : State) :
    Runs w s (snapshotRequest p tag part s) := by
  refine takeRequest_runs hw _ _ _ s ?_
  split <;> exact .refl s

theorem journalRequest_runs {p : Port} (hw : w (.answer p) = true) (tag : Byte) (s : State) :
    Runs w s (journalRequest p tag s) :=
  takeRequest_runs hw _ _ _ s (.aside (setPort_flags_aside p _ s (Nat.sub_le ..) rfl))

theorem alertsRequest_runs {p : Port} (hw : w (.answer p) = true) (tag : Byte) (s : State) :
    Runs w s (alertsRequest p tag s) := takeRequest_runs hw _ _ _ s (.refl s)

theorem setAlertsRequest_runs {p : Port} (hw : w (.answer p) = true) (hm : w (.masks p) = true) (tag : Byte)
    (enable urgent : Half) (s : State) : Runs w s (setAlertsRequest p tag enable urgent s) :=
  takeRequest_runs hw _ _ _ s (.aside (setPort_aside p _ s (Nat.le_refl _)
    (fun h => absurd (hm.symm.trans h) (by decide)) (fun _ => rfl) fun _ => rfl))

theorem ackAlertsRequest_runs {p : Port} (hw : w (.answer p) = true) (tag : Byte) (mask : Half) (s : State) :
    Runs w s (ackAlertsRequest p tag mask s) :=
  takeRequest_runs hw _ _ _ s (.aside (setPort_flags_aside p _ s (Nat.le_refl _) rfl))

theorem claimLeaseRequest_runs {p : Port} (hw : w (.answer p) = true) (hl : w (.lease p) = true) (tag : Byte)
    (term : Half) (s : State) : Runs w s (claimLeaseRequest p tag term s) := by
  refine takeRequest_runs hw _ _ _ s ?_
  dsimp only
  split
  · exact .refl s
  · exact (Runs.aside (setLease_aside hl ..)).trans (.ite (fun _ => journalise_runs ..) fun _ => .refl _)

theorem renewLeaseRequest_runs {p : Port} (hw : w (.answer p) = true) (hl : w (.lease p) = true) (tag : Byte)
    (s : State) : Runs w s (renewLeaseRequest p tag s) := by
  refine takeRequest_runs hw _ _ _ s ?_
  split
  · exact .refl s
  · exact .aside (setLease_aside hl ..)

theorem dropLeaseRequest_runs {p : Port} (hw : w (.answer p) = true) (hl : w (.lease p) = true)
    (hg : w .staging = true) (tag : Byte) (s : State) : Runs w s (dropLeaseRequest p tag s) := by
  refine takeRequest_runs hw _ _ _ s ?_
  dsimp only
  split
  · exact .refl s
  · exact ((Runs.aside (setLease_aside hl ..)).trans (journalise_runs ..)).trans (discardStaging_runs hg ..)

theorem leaseLapse_runs {p : Port} (hl : w (.lease p) = true) (hg : w .staging = true) (s : State) :
    Runs w s (leaseLapse p s) :=
  .ite (fun _ => .refl s) fun _ => (((Runs.aside (setLease_aside hl ..)).trans (journalise_runs ..)).trans
    (.evolves (.alarm ..))).trans (discardStaging_runs hg ..)

theorem grantRequest_runs {p : Port} (hw : w (.answer p) = true) (tag tray : Byte) (amount : Half) (rev park : Byte)
    (s : State) : Runs w s (grantRequest p tag tray amount rev park s) := by
  refine takeRequest_runs hw _ _ _ s ?_
  dsimp only
  split
  · exact .refl s
  · split
    · exact .refl s
    · exact answerAfter_runs _ _ (.evolves (grantTaken_evolves ..))

theorem releaseRequest_runs {p : Port} (hw : w (.answer p) = true) (tag tray rev : Byte) (s : State) :
    Runs w s (releaseRequest p tag tray rev s) := by
  refine takeRequest_runs hw _ _ _ s ?_
  split
  · exact .refl s
  · split
    · exact .refl s
    · exact answerAfter_runs _ _ (.evolves (releaseTaken_evolves ..))

/-- The re-sort and the pass that an accepted SET_TRAY calls for, on the tray whose record before it was r. -/
def setTrayPasses (t : TrayId) (r : Tray) (c : TrayConfig) (wasHeld : Bool) (s : State) : State :=
  let s := if (r.locked || c.cls != r.cfg.cls) && (r.state == .parked || r.state.enabled) then resort s else s
  let s := if r.locked && (r.state == .queued || r.state == .inrush) then shortfallIfDue s else s
  let s := if (r.rewrite c false).commitment < r.commitment then admissionDue s else s
  if liftedFrom wasHeld t s then holdLifted t s else s

/-- The record of an accepted SET_TRAY, with the OVER_CAP entry of a mark that clears. -/
def setTrayRecord (t : TrayId) (c : TrayConfig) (s : State) : State :=
  let v := if (s.tray t).overCap && !c.selfRequest then overCapCleared t s else s
  v.putTray t ((s.tray t).rewrite c (v.zoneInLeak c))

theorem setTrayTaken_eq (t : TrayId) (c : TrayConfig) (s : State) :
    setTrayTaken t c s = setTrayPasses t (s.tray t) c (s.held t) (setTrayRecord t c s) := rfl

theorem setTrayRecord_runs (hc : w .config = true) (t : TrayId) (c : TrayConfig) (s : State) :
    Runs w s (setTrayRecord t c s) := by
  unfold setTrayRecord
  dsimp only
  split
  · exact (journalise_runs ..).trans (.rewritten t c _ (overCapCleared t s) hc)
  · exact .rewritten t c _ s hc

theorem setTrayPasses_evolves (t : TrayId) (r : Tray) (c : TrayConfig) (wasHeld : Bool) (s : State) :
    Evolves s (setTrayPasses t r c wasHeld s) := by
  unfold setTrayPasses
  refine .trans (.trans (.trans (.ite (resort_evolves s) (.refl s)) (.ite (shortfallIfDue_evolves _) (.refl _)))
    (.ite (admissionDue_evolves _) (.refl _))) (.ite (holdLifted_evolves ..) (.refl _))

theorem setTrayTaken_runs (hc : w .config = true) (t : TrayId) (c : TrayConfig) (s : State) :
    Runs w s (setTrayTaken t c s) := by
  rw [setTrayTaken_eq]
  exact (setTrayRecord_runs hc t c s).trans (.evolves (setTrayPasses_evolves ..))

theorem setTrayRequest_runs {p : Port} (hw : w (.answer p) = true) (hc : w .config = true) (tag tray rev : Byte)
    (f : TrayFields) (s : State) : Runs w s (setTrayRequest p tag tray rev f s) := by
  refine takeRequest_runs hw _ _ _ s ?_
  dsimp only
  split
  · rename_i t c _ _
    split
    · exact .refl s
    · refine .trans (.evolves (checkRead_evolves t s)) ?_
      generalize checkRead t s = v
      split
      · exact .refl v
      · exact answerAfter_runs _ _ (setTrayTaken_runs hc ..)
  · exact .refl s

theorem clearFaultCheck_none {t : TrayId} {rev : Byte} {s : State} (h : clearFaultCheck t rev s = none) :
    rev = (s.tray t).revision ∧ (s.tray t).locked = false ∧ (s.tray t).state = .faulted := by
  unfold clearFaultCheck at h
  dsimp only at h
  split at h
  · cases h
  · split at h
    · cases h
    · split at h
      · cases h
      · rename_i h1 h2 h3
        exact ⟨not_not.mp h1, Bool.eq_false_iff.mpr h2, not_not.mp h3⟩

theorem clearFaultTaken_runs (t : TrayId) (s : State) (h : (s.tray t).state = .faulted) :
    Runs w s (clearFaultTaken t s) := by
  refine .repaired t _ s h ?_
  split
  · exact Or.inr rfl
  · exact Or.inl rfl

theorem clearFaultRequest_runs {p : Port} (hw : w (.answer p) = true) (tag tray rev : Byte) (s : State) :
    Runs w s (clearFaultRequest p tag tray rev s) := by
  refine takeRequest_runs hw _ _ _ s ?_
  dsimp only
  split
  · exact .refl s
  · rename_i t _
    split
    · exact .refl s
    · rename_i hc
      split
      · exact answerAfter_runs _ _ (.evolves (checkRead_evolves ..))
      · rename_i hl
        rw [checkRead_unlocked hl]
        exact answerAfter_runs _ _ (clearFaultTaken_runs t s (clearFaultCheck_none hc).2.2)

theorem planOpenRequest_runs {p : Port} (hw : w (.answer p) = true) (hg : w .staging = true) (tag rev : Byte)
    (s : State) : Runs w s (planOpenRequest p tag rev s) := by
  refine takeRequest_runs hw _ _ _ s ?_
  dsimp only
  split
  · exact .refl s
  · split
    · exact .refl s
    · exact ((Runs.evolves (reportEntries_evolves s)).trans (.aside (setStaging_aside hg ..))).trans (journalise_runs ..)

theorem editStaging_runs {p : Port} (hw : w (.answer p) = true) (hg : w .staging = true) (tag : Byte)
    (f : Staging → Option Staging) (s : State) : Runs w s (editStaging p tag f s) := by
  refine takeRequest_runs hw _ _ _ s ?_
  split
  · exact .refl s
  · split
    · exact .refl s
    · exact .aside (setStaging_aside hg ..)

theorem planPointRequest_runs {p : Port} (hw : w (.answer p) = true) (hg : w .staging = true) (tag x : Byte) (s : State) :
    Runs w s (planPointRequest p tag x s) := editStaging_runs hw hg ..

theorem planPutRequest_runs {p : Port} (hw : w (.answer p) = true) (hg : w .staging = true) (tag x : Byte) (s : State) :
    Runs w s (planPutRequest p tag x s) := editStaging_runs hw hg ..

theorem planLengthRequest_runs {p : Port} (hw : w (.answer p) = true) (hg : w .staging = true) (tag x : Byte) (s : State) :
    Runs w s (planLengthRequest p tag x s) := editStaging_runs hw hg ..

/-- The plan, its revision and the keys that an accepted PLAN_COMMIT leaves, before the re-sort. -/
def commitPlan (s : State) : State :=
  { s with seq := { s.seq with
    plan := s.seq.staging.trays.map fun t => { tray := t, code := .matching, reported := false }
    planRev := s.seq.planRev + 1
    keys := planKeys s.seq.staging.trays } }

theorem commitTaken_eq (p : Port) (s : State) : commitTaken p s =
    journalise .planCommit (some (.port p)) (some (s.seq.planRev + 1).toNat) none (clearStaging (resort (commitPlan s))) :=
  rfl

theorem clearStaging_aside (hg : w .staging = true) (s : State) : Aside w s (clearStaging s) := setStaging_aside hg _ s

theorem commitTaken_runs (hp : w .plan = true) (hg : w .staging = true) (p : Port) (s : State) :
    Runs w s (commitTaken p s) := by
  rw [commitTaken_eq]
  exact (((Runs.aside (plan_aside hp _ _ _ s)).trans (.evolves (resort_evolves (commitPlan s)))).trans
    (.aside (clearStaging_aside hg _))).trans (journalise_runs ..)

theorem planCommitRequest_runs {p : Port} (hw : w (.answer p) = true) (hp : w .plan = true) (hg : w .staging = true)
    (tag : Byte) (s : State) : Runs w s (planCommitRequest p tag s) := by
  refine takeRequest_runs hw _ _ _ s ?_
  split
  · exact .refl s
  · split
    · exact .refl s
    · exact .refl s
    · exact answerAfter_runs _ _ (commitTaken_runs hp hg p s)

theorem planAbortRequest_runs {p : Port} (hw : w (.answer p) = true) (hg : w .staging = true) (tag : Byte) (s : State) :
    Runs w s (planAbortRequest p tag s) := by
  refine takeRequest_runs hw _ _ _ s ?_
  split
  · exact .refl s
  · exact discardStaging_runs hg ..

/-- The two shelf settings. -/
def shelfSet (redundancy autoRestart : Bool) (s : State) : State :=
  { s with acct := { s.acct with redundancy := redundancy, autoRestart := autoRestart } }

theorem shelfTaken_eq (p : Port) (r a : Bool) (s : State) : shelfTaken p r a s = settingsEntry p 0x30
    (if s.acct.redundancy != r then endClaim (capacityClaim none .redundancy (shelfSet r a s)) else shelfSet r a s) := rfl

theorem shelfTaken_runs (hs : w .shelf = true) (p : Port) (r a : Bool) (s : State) : Runs w s (shelfTaken p r a s) := by
  have h : Runs w s (shelfSet r a s) := .aside (shelf_aside hs r a s)
  rw [shelfTaken_eq]
  refine .trans (.ite (fun _ => ?_) fun _ => h) (journalise_runs ..)
  exact (h.trans (capacityClaim_runs ..)).trans (.evolves (endClaim_evolves _))

theorem setShelfRequest_runs {p : Port} (hw : w (.answer p) = true) (hs : w .shelf = true) (tag red auto : Byte)
    (s : State) : Runs w s (setShelfRequest p tag red auto s) := by
  refine takeRequest_runs hw _ _ _ s ?_
  split
  · exact answerAfter_runs _ _ (shelfTaken_runs hs ..)
  · exact .refl s

/-- The Leak Monitor's settings after SET_LIMITS. -/
def limitsLeak (f : LimitFields) (l : Leak) : Leak :=
  { l with
    wet := f.wet.toNat, openFloor := f.openFloor.toNat, confirm := f.confirm.toNat
    zones := l.zones.mapFinIdx fun i z _ => { z with enabled := f.enabled.getLsbD i, openAsLeak := f.openAsLeak.getLsbD i } }

theorem limitsTaken_eq (p : Port) (f : LimitFields) (s : State) : limitsTaken p f s = settingsEntry p 0x31 { s with
    leak := limitsLeak f s.leak
    sense := { s.sense with warnLimit := f.warnLimit.toNat, overLimit := f.overLimit.toNat }
    hup := { s.hup with cutoff := f.cutoff.toNat } } := rfl

theorem limitsTaken_runs (hl : w .leak = true) (hs : w .sense = true) (hc : w .cutoff = true) (p : Port)
    (f : LimitFields) (s : State) : Runs w s (limitsTaken p f s) := by
  rw [limitsTaken_eq]
  refine .trans (.aside (.trans (.trans (leak_aside hl (limitsLeak f s.leak) s fun z => ?_) (sense_aside hs _ _))
    (cutoff_aside hc f.cutoff.toNat _))) (journalise_runs ..)
  simp [limitsLeak, State.zone]

theorem setLimitsRequest_runs {p : Port} (hw : w (.answer p) = true) (hl : w .leak = true) (hs : w .sense = true)
    (hc : w .cutoff = true) (tag : Byte) (f : LimitFields) (s : State) : Runs w s (setLimitsRequest p tag f s) := by
  refine takeRequest_runs hw _ _ _ s ?_
  split
  · exact limitsTaken_runs hl hs hc p f s
  · exact .refl s

theorem paceChanged_evolves (mode : PaceMode) (n : Nat) (s : State) : Evolves s (paceChanged mode n s) := by
  unfold paceChanged
  refine .ite ?_ (.ite (.ite ?_ (.pace ..)) (.refl s))
  · cases mode
    · exact (Evolves.pace none s).trans (opportunity_evolves _)
    · exact .pace ..
  · exact (Evolves.pace none s).trans (opportunity_evolves _)

/-- The timers and the opportunities of an accepted SET_TIMING, before its settings. -/
def timingTimers (mode : PaceMode) (f : TimingFields) (s : State) : State :=
  if (paceChanged mode f.interval.toNat s).seq.k < f.k.toNat then opportunity (paceChanged mode f.interval.toNat s)
  else paceChanged mode f.interval.toNat s

/-- The settings of an accepted SET_TIMING. -/
def timingSet (mode : PaceMode) (f : TimingFields) (s : State) : State :=
  { s with
    seq := { s.seq with
      paceMode := mode, paceInterval := f.interval.toNat, k := f.k.toNat
      w0 := f.w0.toNat, w1 := f.w1.toNat, w2 := f.w2.toNat }
    hup := { s.hup with
      s1 := f.s1.toNat, s2 := f.s2.toNat, s3 := f.s3.toNat, qualification := f.qualification.toNat }
    link := { s.link with replyTimeout := f.reply.toNat }
    sense := { s.sense with
      interval := f.census.toNat
      timer := if s.sense.interval = f.census.toNat then s.sense.timer else some f.census.toNat } }

theorem timingTaken_eq (p : Port) (mode : PaceMode) (f : TimingFields) (s : State) :
    timingTaken p mode f s = settingsEntry p 0x32 (timingSet mode f (timingTimers mode f s)) := rfl

theorem timingTimers_evolves (mode : PaceMode) (f : TimingFields) (s : State) : Evolves s (timingTimers mode f s) := by
  have h := paceChanged_evolves mode f.interval.toNat s
  unfold timingTimers
  exact .ite (h.trans (opportunity_evolves _)) h

theorem timingTaken_runs (ht : w .timing = true) (hs : w .sense = true) (p : Port) (mode : PaceMode) (f : TimingFields)
    (s : State) : Runs w s (timingTaken p mode f s) := by
  rw [timingTaken_eq]
  have h (s : State) : Aside w s (timingSet mode f s) := (timing_aside ht mode f s).trans (sense_aside hs _ _)
  exact ((Runs.evolves (timingTimers_evolves mode f s)).trans (.aside (h _))).trans (journalise_runs ..)

theorem setTimingRequest_runs {p : Port} (hw : w (.answer p) = true) (ht : w .timing = true) (hs : w .sense = true)
    (tag : Byte) (f : TimingFields) (s : State) : Runs w s (setTimingRequest p tag f s) := by
  refine takeRequest_runs hw _ _ _ s ?_
  split
  · exact answerAfter_runs _ _ (timingTaken_runs ht hs ..)
  · exact .refl s

theorem startRackRequest_runs {p : Port} (hw : w (.answer p) = true) (tag : Byte) (s : State) :
    Runs w s (startRackRequest p tag s) := by
  refine takeRequest_runs hw _ _ _ s ?_
  dsimp only
  split
  · exact .refl s
  · split
    · exact .refl s
    · exact answerAfter_runs _ _ (.evolves (.trans (.due ..) (planRun_evolves ..)))

theorem returnTray_evolves (z : ZoneId) (l : Bool) (s : State) (t : TrayId) : Evolves s (returnTray z l s t) :=
  .ite (move_idle_evolves t s) (.refl s)

/-- The zone that an accepted CLEAR_ZONE leaves, with its latches clear. -/
def zoneCleared (z : ZoneId) (s : State) : State :=
  setLatches z false (s.setZone z { s.zone z with state := .dry, wetCount := 0 })

/-- The trays that an accepted CLEAR_ZONE returns to IDLE. -/
def returnTrays (z : ZoneId) (s : State) : State :=
  if s.leakZones.isEmpty then
    allTrays.foldl (fun s t => if (s.tray t).locked then returnTray z true s t else s)
      (allTrays.foldl (returnTray z false) s)
  else allTrays.foldl (returnTray z false) s

theorem clearZoneEffect_eq (p : Port) (z : ZoneId) (s : State) :
    let v := returnTrays z (zoneCleared z s)
    let n := (zoneCleared z s).isolatedCount - v.isolatedCount
    clearZoneEffect p z s = (journalise .zoneClear (some (.zone z)) (some n) (some (.number (portCode p))) v, n) := rfl

theorem returnTrays_evolves (z : ZoneId) (s : State) : Evolves s (returnTrays z s) := by
  have h : Evolves s (allTrays.foldl (returnTray z false) s) := .foldl (returnTray_evolves z false) _ s
  unfold returnTrays
  exact .ite (h.trans (.foldl (fun s t => .ite (returnTray_evolves z true s t) (.refl s)) _ _)) h

theorem clearZoneEffect_runs (hl : w .leak = true) (p : Port) (z : ZoneId) (s : State) :
    Runs w s (clearZoneEffect p z s).1 := by
  rw [clearZoneEffect_eq]
  have h : Runs w s (zoneCleared z s) := .latched z false _ s hl rfl
  exact (h.trans (.evolves (returnTrays_evolves z _))).trans (journalise_runs ..)

theorem clearZoneRequest_runs {p : Port} (hw : w (.answer p) = true) (hl : w .leak = true) (tag zone : Byte)
    (s : State) : Runs w s (clearZoneRequest p tag zone s) := by
  refine takeRequest_runs hw _ _ _ s ?_
  dsimp only
  split
  · exact .refl s
  · split
    · exact answerAfter_runs _ _ (clearZoneEffect_runs hl ..)
    · exact .refl s

theorem clearTrapRequest_runs {p : Port} (hw : w (.answer p) = true) (tag : Byte) (s : State) :
    Runs w s (clearTrapRequest p tag s) := takeRequest_runs hw _ _ _ s (.aside (trap_aside _ s))

theorem saveTaken_runs {p : Port} (hw : w (.answer p) = true) (hs : w .store = true) (tag : Byte) (s : State) :
    Runs w s (saveTaken p tag s) := by
  have h : Runs w s (finish (readAll s)) := .evolves ((readAll_evolves s).trans (finish_evolves _))
  unfold saveTaken
  dsimp only
  generalize finish (readAll s) = u at h ⊢
  refine (h.trans (.aside (store_aside hs _ u))).trans (.aside (setPort_aside p _ _ (Nat.le_refl _) (fun _ => rfl)
    (fun _ => rfl) fun h => absurd (hw.symm.trans h) (by decide)))

theorem saveConfigRequest_runs {p : Port} (hw : w (.answer p) = true) (hs : w .store = true) (tag : Byte) (s : State) :
    Runs w s (saveConfigRequest p tag s) :=
  portTake_runs hw _ _ _ s (.ite (fun _ => .aside (respond_aside hw ..)) fun _ => saveTaken_runs hw hs tag s)

theorem storeWritten_runs (hw : ∀ p, w (.answer p) = true) (hs : w .store = true) (s : State) :
    Runs w s (storeWritten s) := by
  unfold storeWritten
  split
  · exact .refl s
  · exact (Runs.aside (store_aside hs _ s)).trans (.aside (respond_aside (hw _) ..))

/-! ### Every command -/

/-- The request that a manager's command is, writes what that command may write. -/
theorem runRequest_runs (i : Instr) (s : State) : Runs (writes i) s (runRequest i s) := by
  have self (p : Port) : (p == p) = true := beq_self_eq_true p
  have sent {i : Instr} {p : Port} (h : sender i = some p) : writes i (.answer p) = true := by
    show (_ || sender i == some p) = true
    rw [h, beq_self_eq_true, Bool.or_true]
  cases i with
  | readStatus => exact statusRequest_runs (sent rfl) ..
  | readTray => exact trayRequest_runs (sent rfl) ..
  | readStation => exact stationRequest_runs (sent rfl) ..
  | readZone => exact zoneRequest_runs (sent rfl) ..
  | readPlan => exact planRequest_runs (sent rfl) ..
  | readSnapshot => exact snapshotRequest_runs (sent rfl) ..
  | readJournal => exact journalRequest_runs (sent rfl) ..
  | readAlerts => exact alertsRequest_runs (sent rfl) ..
  | setAlerts p tag e u => exact setAlertsRequest_runs (w := writes (.setAlerts p tag e u)) (sent rfl) (self p) ..
  | ackAlerts => exact ackAlertsRequest_runs (sent rfl) ..
  | claimLease p tag n => exact claimLeaseRequest_runs (w := writes (.claimLease p tag n)) (sent rfl) (self p) ..
  | renewLease p tag => exact renewLeaseRequest_runs (w := writes (.renewLease p tag)) (sent rfl) (self p) ..
  | dropLease p tag => exact dropLeaseRequest_runs (w := writes (.dropLease p tag)) (sent rfl) (self p) rfl ..
  | grant => exact grantRequest_runs (sent rfl) ..
  | release => exact releaseRequest_runs (sent rfl) ..
  | setTray => exact setTrayRequest_runs (sent rfl) rfl ..
  | clearFault => exact clearFaultRequest_runs (sent rfl) ..
  | planOpen => exact planOpenRequest_runs (sent rfl) rfl ..
  | planPoint => exact planPointRequest_runs (sent rfl) rfl ..
  | planPut => exact planPutRequest_runs (sent rfl) rfl ..
  | planLength => exact planLengthRequest_runs (sent rfl) rfl ..
  | planCommit => exact planCommitRequest_runs (sent rfl) rfl rfl ..
  | planAbort => exact planAbortRequest_runs (sent rfl) rfl ..
  | setShelf => exact setShelfRequest_runs (sent rfl) rfl ..
  | setLimits => exact setLimitsRequest_runs (sent rfl) rfl rfl rfl ..
  | setTiming => exact setTimingRequest_runs (sent rfl) rfl rfl ..
  | startRack => exact startRackRequest_runs (sent rfl) ..
  | clearZone => exact clearZoneRequest_runs (sent rfl) rfl ..
  | clearTrap => exact clearTrapRequest_runs (sent rfl) ..
  | saveConfig => exact saveConfigRequest_runs (sent rfl) rfl ..
  | _ => exact .refl s

/-- A raw write writes what an answer writes, or what the request that its bytes spell writes. -/
theorem rawWrite_runs (p : Port) (bytes : List Byte) (s : State) :
    ∃ j, Runs (writes j) s (rawWrite p bytes s) ∧ (unknownBytes p bytes = true → j = .unknownRequest p bytes) := by
  have hw : writes (.unknownRequest p bytes) (.answer p) = true := beq_self_eq_true (some p)
  unfold rawWrite
  split
  · exact ⟨_, .refl s, fun _ => rfl⟩
  · split
    · exact ⟨_, .aside (raiseOverrun_aside p s), fun _ => rfl⟩
    · split
      · exact ⟨_, .refl s, fun _ => rfl⟩
      · split
        · exact ⟨_, .aside (respond_aside hw ..), fun _ => rfl⟩
        · exact ⟨_, .aside (respond_aside hw ..), fun _ => rfl⟩
        · rename_i i hi
          refine ⟨i, runRequest_runs i s, fun h => ?_⟩
          unfold unknownBytes at h
          rw [hi] at h
          cases bytes <;> exact absurd h Bool.false_ne_true

/-- A command that is no supply or reset event ends in a state that it reaches by writing no more than its own parts, or than those
of the request that its bytes spell. -/
theorem exec_runs {i : Instr} {s t : State} (h : exec i s = .next t) (hr : suppliesOrResets i = false) :
    ∃ j, Runs (writes j) s t ∧ (i.wellFormed = true → j = i) := by
  have run {i : Instr} {s t : State} (h : exec i s = .next t) (he : exec i s = .next (runRequest i s)) :
      ∃ j, Runs (writes j) s t ∧ (i.wellFormed = true → j = i) := by
    obtain rfl : runRequest i s = t := by injection he.symm.trans h
    exact ⟨i, runRequest_runs i s, fun _ => rfl⟩
  cases i with
  | unknownRequest p bytes => injection h with h; exact h ▸ rawWrite_runs p bytes s
  | writeRefusedExecuting p =>
    injection h with h
    exact ⟨.writeRefusedExecuting p, h ▸ .ite (fun _ => .aside (raiseOverrun_aside p s)) fun _ => .refl s, fun _ => rfl⟩
  | storeWriteComplete =>
    injection h with h
    exact ⟨.storeWriteComplete, h ▸ storeWritten_runs (fun _ => rfl) rfl s, fun _ => rfl⟩
  | leaseLapsed p =>
    injection h with h
    exact ⟨.leaseLapsed p, h ▸ leaseLapse_runs (beq_self_eq_true p) rfl s, fun _ => rfl⟩
  | replyFrame bytes =>
    injection h with h
    exact ⟨.replyFrame bytes, h ▸ coreEvent_runs s (replyReceived_runs rfl rfl rfl bytes s), fun _ => rfl⟩
  | strayFrame bytes => injection h with h; exact ⟨.strayFrame bytes, h ▸ .refl s, fun _ => rfl⟩
  | replyTimeout =>
    injection h with h
    exact ⟨.replyTimeout, h ▸ coreEvent_runs s (replyTimedOut_runs rfl rfl s), fun _ => rfl⟩
  | paceExpiry =>
    injection h with h
    exact ⟨.paceExpiry, h ▸ coreEvent_runs s (.evolves (paceExpired_evolves s)), fun _ => rfl⟩
  | windowExpiry j =>
    injection h with h
    exact ⟨.windowExpiry j, h ▸ coreEvent_runs s (.evolves (windowExpired_evolves j s)), fun _ => rfl⟩
  | pfailAsserted => injection h with h; exact ⟨.pfailAsserted, h ▸ pfailRise_runs rfl s, fun _ => rfl⟩
  | pfailDeasserted => injection h with h; exact ⟨.pfailDeasserted, h ▸ pfailFall_runs rfl s, fun _ => rfl⟩
  | qualificationExpiry =>
    injection h with h
    exact ⟨.qualificationExpiry, h ▸ coreEvent_runs s (.evolves (qualificationExpired_evolves s)), fun _ => rfl⟩
  | stageTick =>
    injection h with h
    exact ⟨.stageTick, h ▸ coreEvent_runs s (.evolves (stageTicked_evolves s)), fun _ => rfl⟩
  | conversion ch result =>
    injection h with h
    exact ⟨.conversion ch result, h ▸ coreEvent_runs s (converted_runs rfl ch result s), fun _ => rfl⟩
  | censusClose =>
    injection h with h
    exact ⟨.censusClose, h ▸ coreEvent_runs s (censusExpired_runs rfl rfl rfl s), fun _ => rfl⟩
  | vstbyRise | vcoreFall | vcoreRecovery | startDelayExpiry | resetNAsserted | resetNDeasserted | vstbyFall =>
    exact absurd hr (by decide)
  | _ => exact run h rfl

end Sys2Proof.Machine
end

section
/-! SUPPORT. Reads while no zone is in LEAK: a part that fails its check locks its tray and isolates none (R17, R18). -/

namespace Sys2Proof.Machine

variable {s u : State}

/-- A record as a lock leaves it: the commitment is frozen, and nothing else changes (R18). -/
def Tray.lockedNow (r : Tray) : Tray := { r with locked := true, frozen := r.commitment }

/-- The second state differs from the first by locks that isolate no tray. -/
structure Locks (s u : State) : Prop where
  evolves : Evolves s u
  tray : ∀ n, u.tray n = s.tray n ∨ (s.tray n).locked = false ∧ u.tray n = (s.tray n).lockedNow
  queue : u.queue = s.queue
  park : u.park.Perm s.park
  acct : u.acct = s.acct
  seq : u.seq = s.seq
  hup : u.hup = s.hup
  hold : u.hold = s.hold
  agenda : u.agenda = s.agenda
  trap : s.trap.latched.isSome = true → u.trap.latched = s.trap.latched
  flags : ∀ q, (s.port q).flags &&& 0x1000 = 0x1000 → (u.port q).flags &&& 0x1000 = 0x1000

theorem Locks.refl (s : State) : Locks s s :=
  ⟨.refl s, fun _ => Or.inl rfl, rfl, .refl _, rfl, rfl, rfl, rfl, rfl, fun _ => rfl, fun _ h => h⟩

theorem Locks.trans {t : State} (h : Locks s t) (h' : Locks t u) : Locks s u where
  evolves := h.evolves.trans h'.evolves
  tray n := by
    rcases h.tray n with e | ⟨hl, e⟩ <;> rcases h'.tray n with e' | ⟨hl', e'⟩
    · exact Or.inl (e'.trans e)
    · exact Or.inr ⟨e ▸ hl', by rw [e', e]⟩
    · exact Or.inr ⟨hl, e'.trans e⟩
    · rw [e] at hl'
      exact absurd hl' (by simp [Tray.lockedNow])
  queue := h'.queue.trans h.queue
  park := h'.park.trans h.park
  acct := h'.acct.trans h.acct
  seq := h'.seq.trans h.seq
  hup := h'.hup.trans h.hup
  hold := h'.hold.trans h.hold
  agenda := h'.agenda.trans h.agenda
  trap hs := (h'.trap (by rw [h.trap hs]; exact hs)).trans (h.trap hs)
  flags q hq := h'.flags q (h.flags q hq)

theorem Locks.foldl {α : Type} {f : State → α → State} (hf : ∀ s a, s.leakZones = [] → Locks s (f s a)) (l : List α)
    (s : State) (hs : s.leakZones = []) : Locks s (l.foldl f s) := by
  induction l generalizing s with
  | nil => exact .refl s
  | cons a l ih =>
    have h := hf s a hs
    refine h.trans (ih _ ?_)
    have : (f s a).leakZones = s.leakZones := by
      unfold State.leakZones State.zone
      rw [h.evolves.sameUnits.leak]
    rw [this, hs]

theorem leakZones_congr (h : u.leak = s.leak) : u.leakZones = s.leakZones := by
  unfold State.leakZones State.zone
  rw [h]

theorem Locks.leakZones (h : Locks s u) : u.leakZones = s.leakZones := leakZones_congr h.evolves.sameUnits.leak

theorem Locks.state (h : Locks s u) (n : TrayId) : (u.tray n).state = (s.tray n).state := by
  rcases h.tray n with e | ⟨_, e⟩ <;> rw [e]
  rfl

/-- A flag that is set stays set when another is set. -/
theorem setFlag_keeps (c : Alert) (r : PortRec) (m : Half) (h : r.flags &&& m = m) : (r.setFlag c).flags &&& m = m := by
  show (r.flags ||| c.mask) &&& m = m
  refine BitVec.eq_of_getElem_eq fun i hi => ?_
  have hb : (r.flags[i] && m[i]) = m[i] := by rw [← BitVec.getElem_and, h]
  rw [BitVec.getElem_and, BitVec.getElem_or]
  cases hm : m[i]
  · simp
  · rw [hm, Bool.and_true] at hb
    simp [hb]

theorem setFlag_integrity (r : PortRec) : (r.setFlag .integrity).flags &&& 0x1000 = 0x1000 := by
  have hm : Alert.integrity.mask = 0x1000 := by decide
  show (r.flags ||| Alert.integrity.mask) &&& 0x1000 = 0x1000
  rw [hm]
  refine BitVec.eq_of_getElem_eq fun i hi => ?_
  rw [BitVec.getElem_and, BitVec.getElem_or]
  cases (0x1000 : Half)[i] <;> simp

theorem entryMade_flags (full : Bool) (r : PortRec) : (r.entryMade full).flags = r.flags := by
  unfold PortRec.entryMade
  split <;> rfl

theorem journalise_port_flags (k : Kind) (a : Option Subject) (v : Option Nat) (r : Option Reason) (s : State) (p : Port) :
    ((journalise k a v r s).port p).flags = (s.port p).flags := by
  cases p <;> exact entryMade_flags ..

/-- The steps of R18 for one tray while no zone is in LEAK. -/
theorem lockOne_eq_of_noLeak (t : TrayId) (h : s.leakZones = []) : lockOne none t s =
    raise .integrity (journalise .integrity (some (.tray t)) none none
      (trapFailure (.tray t) (sortPark (s.setRecord t (s.tray t).lockedNow)))) := by
  have hz : (sortPark (s.setRecord t (s.tray t).lockedNow)).leakZones = [] := h
  have hp : pickLeakZone none (sortPark (s.setRecord t (s.tray t).lockedNow)) =
      (none, sortPark (s.setRecord t (s.tray t).lockedNow)) := by
    unfold pickLeakZone
    dsimp only
    rw [hz]
  unfold lockOne
  dsimp only
  rw [show ({ s.tray t with locked := true, frozen := (s.tray t).commitment } : Tray) = (s.tray t).lockedNow from rfl, hp]
  split <;> rfl

theorem trapFailure_latched (x : TrapSource) (s : State) : (trapFailure x s).trap.latched =
    if s.trap.latched.isSome then s.trap.latched else some x := by
  unfold trapFailure
  cases h : s.trap.latched <;> simp [h]

theorem lockOne_locks {t : TrayId} (h : s.leakZones = []) (hl : (s.tray t).locked = false) :
    Locks s (lockOne none t s) := by
  have ev := lockOne_evolves none t s
  rw [lockOne_eq_of_noLeak t h] at ev ⊢
  refine ⟨ev, fun n => ?_, ?_, ?_, ?_, ?_, ?_, ?_, ?_, fun ht => ?_, fun q hq => ?_⟩
  · rw [tray_congr (s := s.setRecord t (s.tray t).lockedNow) (by simp), setRecord_tray]
    split
    · rename_i e
      subst e
      exact Or.inr ⟨hl, rfl⟩
    · exact Or.inl rfl
  · simp
  · simpa using sortBy_perm _ _
  · simp
  · simp
  · simp
  · simp
  · simp
  · show (trapFailure _ _).trap.latched = _
    rw [trapFailure_latched]
    simp [ht]
  · rw [raise_port]
    refine setFlag_keeps _ _ _ ?_
    rw [journalise_port_flags]
    cases q <;> simpa [State.port] using hq

theorem testOne_locks (t : TrayId) (s : State) (h : s.leakZones = []) : Locks s (testOne none t s) := by
  unfold testOne
  split
  · rename_i hf
    unfold Tray.failsCheck at hf
    rw [Bool.and_eq_true, Bool.not_eq_true'] at hf
    exact lockOne_locks h hf.2
  · exact .refl s

theorem testMembers_locks (m : TrayState → Bool) (s : State) (h : s.leakZones = []) : Locks s (testMembers none m s) := by
  refine Locks.foldl (fun s t hs => ?_) _ s h
  split
  · exact testOne_locks t s hs
  · exact .refl s

/-- A read of a tray whose part fails its check, as the lock and the reads that follow it. -/
theorem checkRead_of_fails {t : TrayId} (hf : (s.tray t).failsCheck = true) (h : s.leakZones = []) :
    Locks (lockOne none t s) (checkRead t s) := by
  have hl : (lockOne none t s).leakZones = [] :=
    (leakZones_congr (lockOne_evolves none t s).sameUnits.leak).trans h
  unfold checkRead checkReadIn
  rw [if_pos hf]
  dsimp only
  split
  · exact testMembers_locks _ _ hl
  · split
    · exact testMembers_locks _ _ hl
    · exact .refl _

/-- A read while no zone is in LEAK locks and isolates no tray. -/
theorem checkRead_lockings (t : TrayId) (s : State) (h : s.leakZones = []) : Locks s (checkRead t s) := by
  by_cases hf : (s.tray t).failsCheck = true
  · have hl : (s.tray t).locked = false := by
      unfold Tray.failsCheck at hf
      rw [Bool.and_eq_true, Bool.not_eq_true'] at hf
      exact hf.2
    exact (lockOne_locks h hl).trans (checkRead_of_fails hf h)
  · rw [checkRead_passes (Bool.eq_false_iff.mpr hf)]
    exact .refl s

end Sys2Proof.Machine
end

section
/-! SUPPORT. What a supply or reset event does: it changes the pins and the cause, it stops the core, or it ends the reset; and what
the adoption and the restored leaks of a warm restart do to the trays. -/

namespace Sys2Proof.Machine

variable {s t u : State}

/-! ### The kinds of reset event -/

/-- The pins and the cause of the reset record are replaced, the core running or held as before. -/
def State.withPins (u : Supply) (c : ResetCause) (s : State) : State := { s with sup := u, hold := { s.hold with cause := c } }

/-- The second state differs from the first in the pins, and in a cause that turns no warm restart into a POWER_ON. -/
def Pinned (s t : State) : Prop :=
  ∃ u c, t = s.withPins u c ∧ u.held = s.sup.held ∧ (c = .powerOn → s.hold.cause = .powerOn)

/-- The core stops: every record begins afresh, and the hold domain is lost, or keeps its latches under the cause of a warm
restart. -/
def Stopped (s t : State) : Prop :=
  ∃ st h u, t = State.fresh s.pending st h u s.draws ∧ u.held = true ∧
    (h = Hold.fresh ∨ ∃ d p, h = { s.hold with cause := .warm d p })

/-- The reset ends, at a held core whose pins alone have changed. -/
def Restarted (s t : State) : Prop :=
  ∃ v, Pinned s v ∧ v.hold = s.hold ∧ v.sup.held = true ∧ t = endReset v

theorem holdFor_cases (dip pin : Bool) (s : State) (f : Supply → Supply) (hf : ∀ u, (f u).held = u.held) :
    let v := holdFor dip pin s
    let t := { v with sup := f v.sup }
    Pinned s t ∨ Stopped s t := by
  dsimp only
  unfold holdFor
  by_cases h : s.sup.held = true
  · refine Or.inl ⟨f s.sup, addCause false dip pin s.hold.cause, ?_, hf _, fun hc => ?_⟩
    · simp only [h, Bool.not_true, if_true, State.withPins]
    · unfold addCause at hc
      simp only [Bool.false_eq_true, if_false] at hc
      split at hc
      · assumption
      · cases hc
  · replace h : s.sup.held = false := Bool.eq_false_iff.mpr h
    refine Or.inr ⟨{ s.store with writing := none }, { s.hold with cause := .warm dip pin }, f { s.sup with held := true },
      ?_, hf _, Or.inr ⟨dip, pin, rfl⟩⟩
    simp only [h, Bool.not_false, Bool.false_eq_true, if_false]
    rfl

theorem endResetIfDue_cases (u : Supply) (hu : u.held = s.sup.held) :
    Pinned s (endResetIfDue { s with sup := u }) ∨ Restarted s (endResetIfDue { s with sup := u }) := by
  have hp : Pinned s { s with sup := u } := ⟨u, s.hold.cause, rfl, hu, id⟩
  unfold endResetIfDue
  split
  · rename_i h
    refine Or.inr ⟨_, hp, rfl, ?_, rfl⟩
    unfold Supply.resetCanEnd at h
    simp only [Bool.and_eq_true] at h
    exact h.1.1.1.1
  · exact Or.inl hp

/-- A supply or reset event changes the pins, stops the core, or ends the reset. -/
theorem exec_resets {i : Instr} (h : exec i s = .next t) (hi : suppliesOrResets i = true) :
    Pinned s t ∨ Stopped s t ∨ Restarted s t := by
  have same : Pinned s s := ⟨s.sup, s.hold.cause, rfl, rfl, id⟩
  have pinned {t : State} (h : Pinned s t ∨ Restarted s t) : Pinned s t ∨ Stopped s t ∨ Restarted s t :=
    h.imp_right Or.inr
  have stopped {t : State} (h : Pinned s t ∨ Stopped s t) : Pinned s t ∨ Stopped s t ∨ Restarted s t :=
    h.imp_right Or.inl
  cases i with
  | vstbyRise =>
    injection h with h
    subst h
    unfold vstbyRisen
    split
    · exact Or.inl same
    · exact Or.inr (Or.inl ⟨_, Hold.fresh, _, rfl, rfl, Or.inl rfl⟩)
  | vstbyFall =>
    injection h with h
    subst h
    unfold vstbyFallen
    split
    · exact Or.inr (Or.inl ⟨_, Hold.fresh, _, rfl, rfl, Or.inl rfl⟩)
    · exact Or.inl same
  | vcoreFall =>
    injection h with h
    subst h
    unfold vcoreFallen
    split
    · exact stopped (holdFor_cases true false s (fun u => { u with vcore := false, startDelay := none }) fun _ => rfl)
    · exact Or.inl same
  | vcoreRecovery =>
    injection h with h
    subst h
    unfold vcoreRecovered
    split
    · exact Or.inl same
    · exact Or.inl ⟨_, s.hold.cause, rfl, rfl, id⟩
  | startDelayExpiry =>
    injection h with h
    subst h
    unfold startDelayExpired
    split
    · exact pinned (endResetIfDue_cases { s.sup with startDelay := none } rfl)
    · exact Or.inl same
  | resetNAsserted =>
    injection h with h
    subst h
    unfold resetAsserted
    split
    · exact Or.inl same
    · exact stopped (holdFor_cases false true s (fun u => { u with resetAsserted := true }) fun _ => rfl)
  | resetNDeasserted =>
    injection h with h
    subst h
    unfold resetDeasserted
    split
    · exact pinned (endResetIfDue_cases { s.sup with resetAsserted := false } rfl)
    · exact Or.inl same
  | _ => exact absurd hi (by simp [suppliesOrResets])

/-! ### The core as loaded -/

theorem fresh_tray (pending : List Instr) (st : Store) (h : Hold) (u : Supply) (d : Nat) (n : TrayId) :
    (State.fresh pending st h u d).tray n = Tray.fresh .default .matching := by
  simp [State.tray, State.fresh]

/-- The image that a reset loads: the stored one, or the defaults. -/
def State.loads (s : State) : Image := s.store.image.getD Image.default

theorem loadedCore_tray (s : State) (n : TrayId) :
    (loadedCore s).tray n = Tray.fresh (s.loads.trays[n]).1 (s.loads.trays[n]).2 := by
  simp [State.tray, loadedCore, State.load, State.loads]

theorem loadedCore_zone (s : State) (z : ZoneId) : (loadedCore s).zone z =
    { state := .dry, wetCount := 0, lastClass := none, enabled := (s.loads.zones[z]).1
      openAsLeak := (s.loads.zones[z]).2 } := by
  simp [State.zone, loadedCore, State.load, State.loads]

theorem loadedCore_slots (s : State) (j : SlotId) : (loadedCore s).seq.slots[j] = none := by
  simp [loadedCore, State.load, State.fresh]

theorem fresh_lawful (c : TrayConfig) (k : CheckCode) : (Tray.fresh c k).lawful := by
  refine ⟨rfl, fun _ => rfl, fun _ => ⟨rfl, rfl⟩, ?_, ?_, Nat.le_refl _⟩ <;> simp [Tray.fresh]

/-- Every tray is IDLE with no commitment, in no collection, and nothing is committed: the rack as a reset begins it. -/
structure State.dormant (s : State) : Prop where
  lawful : s.recordsLawful
  idle : ∀ n, (s.tray n).state = .idle
  queue : s.queue = []
  park : s.park = []
  slots : ∀ j : SlotId, s.seq.slots[j] = none
  committed : s.acct.committed = 0

theorem State.dormant.commitment (h : s.dormant) (n : TrayId) : (s.tray n).commitment = 0 := by
  rw [(h.lawful n).1, h.idle n]
  rfl

theorem State.dormant.committedSums (h : s.dormant) : s.committedSums := by
  show s.acct.committed = _
  rw [h.committed]
  exact (List.sum_eq_zero fun x hx => by
    obtain ⟨n, _, rfl⟩ := List.mem_map.mp hx
    exact h.commitment n).symm

theorem State.dormant.collectionsAgree (h : s.dormant) : s.collectionsAgree := by
  have hs (j : SlotId) : s.slotTrays[j] = none := by rw [slotTrays_get, h.slots]; rfl
  rw [collectionsAgree_iff]
  simp only [h.queue, h.park, h.idle, hs]
  simp

theorem fresh_dormant (pending : List Instr) (st : Store) (h : Hold) (u : Supply) (d : Nat) :
    (State.fresh pending st h u d).dormant where
  lawful n := by
    rw [fresh_tray]
    exact fresh_lawful _ _
  idle n := by rw [fresh_tray]; rfl
  queue := rfl
  park := rfl
  slots j := by simp [State.fresh]
  committed := rfl

theorem loadedCore_dormant (s : State) : (loadedCore s).dormant where
  lawful n := by
    rw [loadedCore_tray]
    exact fresh_lawful _ _
  idle n := by rw [loadedCore_tray]; rfl
  queue := rfl
  park := rfl
  slots := loadedCore_slots s
  committed := rfl

theorem dormant_congr (ht : u.trays = s.trays) (hq : u.queue = s.queue) (hp : u.park = s.park)
    (hs : u.seq.slots = s.seq.slots) (hc : u.acct.committed = s.acct.committed) (h : s.dormant) : u.dormant where
  lawful := recordsLawful_congr ht h.lawful
  idle n := by rw [tray_congr ht]; exact h.idle n
  queue := hq.trans h.queue
  park := hp.trans h.park
  slots j := by rw [hs]; exact h.slots j
  committed := hc.trans h.committed

/-! ### The first poll -/

theorem sendPoll_of_module {a : StationId} (ha : ¬ a.val < 32) (s : State) : sendPoll a s = { s with
    link := { s.link with
      outstanding := some { address := a, sent := none, onBattery := s.onBattery, window := none }
      replyTimer := some s.link.replyTimeout } } := by
  unfold sendPoll State.pollFor
  simp only [ha, dite_false]
  rfl

/-- What begins when the part leaves reset writes the poll and the census timer alone. -/
theorem beginService_eq (s : State) : beginService s = { s with
    sense := { s.sense with timer := some s.sense.interval }
    link := { s.link with
      outstanding := some { address := 32, sent := none, onBattery := s.onBattery, window := none }
      replyTimer := some s.link.replyTimeout } } := by
  unfold beginService
  rw [sendPoll_of_module (by decide)]
  rfl

/-! ### The warm restart, step by step -/

/-- A warm restart at its first step: the loaded core in RECOVERING (R160 step 1). -/
def warmLoaded (s : State) : State :=
  { loadedCore s with acct := { (loadedCore s).acct with mode := .recovering } }

/-- A warm restart after the adoption (R160 step 2). -/
def warmAdopted (s : State) : State := allTrays.foldl adopt (warmLoaded s)

/-- A warm restart after the restored leaks (R160 step 3). -/
def warmLeaks (s : State) : State := allZones.foldl restoreLeak (warmAdopted s)

/-- The end of a warm restart's set-up, from the rack after the restored leaks and the core as loaded. -/
def warmEnd (loaded leaks : State) (result : StoreResult) : State :=
  beginService { setUsable (chooseHoldup leaks) with
    journal := loaded.journal
    portA := loaded.portA
    portB := loaded.portB
    agenda := .none
    hold := { (setUsable (chooseHoldup leaks)).hold with
      adopted := leaks.runCount, restored := leaks.leakZones.length, result := result } }

theorem warmStart_eq (s : State) : warmStart s = warmEnd (loadedCore s) (warmLeaks s) s.store.result := by
  unfold warmStart
  dsimp only
  simp only [warmEnd, warmLeaks, warmAdopted, warmLoaded]

theorem warmLoaded_dormant (s : State) : (warmLoaded s).dormant :=
  dormant_congr (s := loadedCore s) rfl rfl rfl rfl rfl (loadedCore_dormant s)

/-- Choosing the holdup state writes the holdup record and usable capacity alone. -/
theorem chooseHoldup_eq (s : State) : chooseHoldup s = s.setHup (chooseHoldup s).hup := by
  unfold chooseHoldup
  split
  · rfl
  · split <;> rfl

/-! ### The adoption -/

/-- The record of an adopted tray: RUN at its standing grant, or at grant 0 with no tries left when locked (R160). -/
def Tray.adoptedNow (r : Tray) : Tray :=
  { r with
    state := .run, grant := if r.locked then 0 else r.cfg.standing, commitment := if r.locked then 0 else r.cfg.standing
    adopted := true, triesLeft := if r.locked then 0 else r.triesLeft }

theorem adopt_eq (s : State) (t : TrayId) : adopt s t =
    if s.hold.enable[t] then (checkRead t s).putTray t ((checkRead t s).tray t).adoptedNow else s := rfl

/-- An adopted tray's record is lawful, when it was the lawful record of a tray in no fault. -/
theorem adoptedNow_lawful {r : Tray} (h : r.lawful) (hf : r.state ≠ .faulted) : r.adoptedNow.lawful := by
  obtain ⟨_, _, _, _, hcause, htries⟩ := h
  refine ⟨rfl, by simp [Tray.adoptedNow], fun hk => absurd hk (by decide : ¬ TrayState.run.keepsMarks = false),
    fun _ => rfl, ?_, ?_⟩
  · constructor
    · exact fun hc => absurd (hcause.mp hc) hf
    · exact fun hs => absurd hs (by decide : TrayState.run ≠ .faulted)
  · show (if r.locked then 0 else r.triesLeft) ≤ r.cfg.tries
    split
    · exact Nat.zero_le _
    · exact htries

/-- What the adoption keeps: no zone in LEAK, and every tray IDLE or RUN with a lawful record, and the collections empty. -/
structure Adopting (s : State) : Prop where
  noLeak : s.leakZones = []
  lawful : s.recordsLawful
  state : ∀ n, (s.tray n).state = .idle ∨ (s.tray n).state = .run
  sums : s.committedSums
  queue : s.queue = []
  park : s.park = []
  slots : ∀ j : SlotId, s.seq.slots[j] = none

theorem Locks.adopting (h : Locks s u) (hs : Adopting s) : Adopting u where
  noLeak := h.leakZones.trans hs.noLeak
  lawful := h.evolves.recordsLawful hs.lawful
  state n := by rw [h.state]; exact hs.state n
  sums := h.evolves.committedSums hs.sums
  queue := h.queue.trans hs.queue
  park := (hs.park ▸ h.park).eq_nil
  slots j := by rw [h.seq]; exact hs.slots j

theorem adopt_adopting (hs : Adopting s) (n : TrayId) : Adopting (adopt s n) := by
  rw [adopt_eq]
  split
  · have hl := (checkRead_lockings n s hs.noLeak).adopting hs
    generalize checkRead n s = v at hl
    refine ⟨hl.noLeak, ?_, fun k => ?_, putTray_committedSums _ _ hl.sums, hl.queue, hl.park, hl.slots⟩
    · refine putTray_recordsLawful _ _ hl.lawful (adoptedNow_lawful (hl.lawful n) ?_)
      rcases hl.state n with h | h <;> rw [h] <;> decide
    · rw [putTray_tray]
      split
      · exact Or.inr rfl
      · exact hl.state k
  · exact hs

theorem adoptAll_adopting (hs : Adopting s) (l : List TrayId) : Adopting (l.foldl adopt s) := by
  induction l generalizing s with
  | nil => exact hs
  | cons n l ih => exact ih (adopt_adopting hs n)

theorem warmLoaded_noLeak (s : State) : (warmLoaded s).leakZones = [] := by
  have h (z : ZoneId) : ((warmLoaded s).zone z).state = .dry :=
    congrArg Zone.state (loadedCore_zone s z)
  unfold State.leakZones
  simp only [h]
  decide

theorem warmLoaded_adopting (s : State) : Adopting (warmLoaded s) :=
  have h := warmLoaded_dormant s
  ⟨warmLoaded_noLeak s, h.lawful, fun n => Or.inl (h.idle n), h.committedSums, h.queue, h.park, h.slots⟩

theorem warmAdopted_adopting (s : State) : Adopting (warmAdopted s) := adoptAll_adopting (warmLoaded_adopting s) _

theorem Adopting.collectionsAgree (h : Adopting s) : s.collectionsAgree := by
  have hs (j : SlotId) : s.slotTrays[j] = none := by rw [slotTrays_get, h.slots]; rfl
  have ne (st : TrayState) (h1 : st ≠ .idle) (h2 : st ≠ .run) (n : TrayId) : (s.tray n).state = st ↔ False :=
    iff_false_intro fun e => (h.state n).elim (fun e' => h1 (e.symm.trans e')) fun e' => h2 (e.symm.trans e')
  rw [collectionsAgree_iff]
  simp only [h.queue, h.park, hs, ne .queued (by decide) (by decide), ne .parked (by decide) (by decide),
    ne .inrush (by decide) (by decide)]
  simp

/-! ### What the adoption does to the enable latches -/

theorem putTray_enable_ne {n k : TrayId} (h : k ≠ n) (r : Tray) (s : State) :
    (s.putTray n r).hold.enable[k] = s.hold.enable[k] := by
  have : (n : Nat) ≠ k := fun e => h (Fin.ext e.symm)
  simp [State.putTray, this]

theorem putTray_enable_self (n : TrayId) (r : Tray) (s : State) :
    (s.putTray n r).hold.enable[n] = r.state.enabled := by simp [State.putTray]

theorem adopt_enable_ne {n k : TrayId} (h : k ≠ n) (hs : s.leakZones = []) :
    (adopt s n).hold.enable[k] = s.hold.enable[k] ∧ ((adopt s n).tray k).state = (s.tray k).state := by
  rw [adopt_eq]
  split
  · have hl := checkRead_lockings n s hs
    rw [putTray_enable_ne h, putTray_tray, if_neg h, hl.hold, hl.state]
    exact ⟨rfl, rfl⟩
  · exact ⟨rfl, rfl⟩

/-- Adopting one tray after another leaves the latch of each tray as it was. -/
theorem adopt_enable (n k : TrayId) (hs : s.leakZones = []) : (adopt s n).hold.enable[k] = s.hold.enable[k] := by
  by_cases h : k = n
  · subst h
    rw [adopt_eq]
    split
    · rename_i he
      rw [putTray_enable_self, he]
      rfl
    · rfl
  · exact (adopt_enable_ne h hs).1

theorem adoptAll_enable (hs : Adopting s) (l : List TrayId) (k : TrayId) :
    (l.foldl adopt s).hold.enable[k] = s.hold.enable[k] := by
  induction l generalizing s with
  | nil => rfl
  | cons n l ih => exact (ih (adopt_adopting hs n)).trans (adopt_enable n k hs.noLeak)

/-- After the adoption every tray in its list is RUN when its latch is on, and as it was when its latch is off. -/
theorem adoptAll_state (hs : Adopting s) (l : List TrayId) (hl : l.Nodup) (k : TrayId) :
    ((l.foldl adopt s).tray k).state = if k ∈ l ∧ s.hold.enable[k] = true then .run else (s.tray k).state := by
  induction l generalizing s with
  | nil => simp
  | cons n l ih =>
    obtain ⟨hn, hl⟩ := List.nodup_cons.mp hl
    rw [List.foldl_cons, ih (adopt_adopting hs n) hl, adopt_enable n k hs.noLeak]
    by_cases h : k = n
    · subst h
      rw [adopt_eq]
      simp only [hn, false_and, if_false, List.mem_cons, true_or, true_and]
      split
      · rw [putTray_tray_self]
        rfl
      · rfl
    · simp only [List.mem_cons, h, false_or, (adopt_enable_ne h hs.noLeak).2]

theorem mem_allTrays (n : TrayId) : n ∈ allTrays := List.mem_finRange n

theorem nodup_allTrays : allTrays.Nodup := List.nodup_finRange 32

theorem mem_allZones (z : ZoneId) : z ∈ allZones := List.mem_finRange z

theorem nodup_allZones : allZones.Nodup := List.nodup_finRange 8

theorem warmAdopted_enablesTell (s : State) : (warmAdopted s).enablesTell := by
  have h := warmLoaded_adopting s
  intro n
  unfold warmAdopted
  rw [adoptAll_enable h, adoptAll_state h _ nodup_allTrays, (warmLoaded_dormant s).idle]
  simp only [mem_allTrays, true_and]
  cases (warmLoaded s).hold.enable[n] <;> rfl

/-! ### The restored leaks -/

theorem setZone_zone (z y : ZoneId) (r : Zone) (s : State) :
    (s.setZone z r).zone y = if y = z then r else s.zone y := by
  simp only [State.setZone, State.zone, Fin.getElem_fin, Vector.getElem_set, Fin.ext_iff, eq_comm]

/-- A restored leak is the zone's new state and a sequence of moves. -/
theorem restoreLeak_evolves (s : State) (z : ZoneId) :
    ∃ v, Evolves v (restoreLeak s z) ∧ v = (if s.hold.leakLatch[z] then
      s.setZone z { s.zone z with state := .leak, wetCount := 0, lastClass := none } else s) := by
  unfold restoreLeak
  split
  · exact ⟨_, .foldl (isolateIfInZone_evolves z) allTrays _, rfl⟩
  · exact ⟨s, .refl s, rfl⟩

end Sys2Proof.Machine
end

section
/-! SUPPORT. The end of a reset: what the set-up of a POWER_ON start and of a warm restart leaves, and what every step keeps of
the records, the sums and the collections (R12, R30). -/

namespace Sys2Proof.Machine

variable {s t u : State}

/-! ### The restored leaks, all of them -/

theorem restoreLeak_hold (s : State) (z : ZoneId) :
    (restoreLeak s z).hold.closed = s.hold.closed ∧ (restoreLeak s z).hold.leakLatch = s.hold.leakLatch := by
  obtain ⟨v, hv, rfl⟩ := restoreLeak_evolves s z
  obtain ⟨hc, hl⟩ := hv.valves
  rw [hc, hl]
  split <;> exact ⟨rfl, rfl⟩

theorem zone_congr (h : u.leak = s.leak) (z : ZoneId) : u.zone z = s.zone z := by
  unfold State.zone
  rw [h]

theorem restoreLeak_zone (s : State) (z y : ZoneId) : (restoreLeak s z).zone y =
    if y = z ∧ s.hold.leakLatch[z] = true then { s.zone y with state := .leak, wetCount := 0, lastClass := none }
    else s.zone y := by
  obtain ⟨v, hv, rfl⟩ := restoreLeak_evolves s z
  rw [zone_congr hv.sameUnits.leak]
  split
  · rename_i h
    rw [setZone_zone]
    by_cases hy : y = z
    · subst hy
      rw [if_pos rfl, if_pos ⟨rfl, h⟩]
    · rw [if_neg hy, if_neg fun e => hy e.1]
  · rename_i h
    rw [if_neg fun e => h e.2]

theorem restoreAll_zone (l : List ZoneId) (hl : l.Nodup) (s : State) (y : ZoneId) : (l.foldl restoreLeak s).zone y =
    if y ∈ l ∧ s.hold.leakLatch[y] = true then { s.zone y with state := .leak, wetCount := 0, lastClass := none }
    else s.zone y := by
  induction l generalizing s with
  | nil => simp
  | cons z l ih =>
    obtain ⟨hz, hl⟩ := List.nodup_cons.mp hl
    rw [List.foldl_cons, ih hl, (restoreLeak_hold s z).2, restoreLeak_zone]
    by_cases hy : y = z
    · subst hy
      simp [hz]
    · simp [hy]

/-- What moves and replaced zone records keep, the restored leaks keep. -/
theorem restoreAll_keeps {P : State → Prop} (he : ∀ s u, Evolves s u → P s → P u)
    (hz : ∀ s z r, P s → P (s.setZone z r)) (l : List ZoneId) (h : P s) : P (l.foldl restoreLeak s) := by
  induction l generalizing s with
  | nil => exact h
  | cons z l ih =>
    refine ih ?_
    obtain ⟨v, hv, rfl⟩ := restoreLeak_evolves s z
    refine he _ _ hv ?_
    split
    · exact hz s z _ h
    · exact h

/-- What moves and replaced records keep, the adoption keeps. -/
theorem adoptAll_keeps {P : State → Prop} (he : ∀ s u, Evolves s u → P s → P u)
    (hp : ∀ s n r, P s → P (s.putTray n r)) (l : List TrayId) (h : P s) : P (l.foldl adopt s) := by
  induction l generalizing s with
  | nil => exact h
  | cons n l ih =>
    refine ih ?_
    rw [adopt_eq]
    split
    · exact hp _ _ _ (he _ _ (checkRead_evolves n s) h)
    · exact h

theorem warmAdopted_keeps {P : State → Prop} (he : ∀ s u, Evolves s u → P s → P u)
    (hp : ∀ s n r, P s → P (s.putTray n r)) (h : P (warmLoaded s)) : P (warmAdopted s) := by
  unfold warmAdopted
  exact adoptAll_keeps he hp _ h

theorem warmLeaks_keeps {P : State → Prop} (he : ∀ s u, Evolves s u → P s → P u)
    (hz : ∀ s z r, P s → P (s.setZone z r)) (h : P (warmAdopted s)) : P (warmLeaks s) := by
  unfold warmLeaks
  exact restoreAll_keeps he hz _ h

/-! ### The end of a warm restart -/

theorem warmEnd_eq (l v : State) (r : StoreResult) : warmEnd l v r = beginService { setUsable (v.setHup (chooseHoldup v).hup) with
    journal := l.journal
    portA := l.portA
    portB := l.portB
    agenda := .none
    hold := { v.hold with adopted := v.runCount, restored := v.leakZones.length, result := r } } := by
  unfold warmEnd
  rw [chooseHoldup_eq]
  rfl

/-- The end of the set-up leaves the tables, the latches and the zones as the restored leaks left them. -/
structure SetUp (l v u : State) : Prop where
  trays : u.trays = v.trays
  queue : u.queue = v.queue
  park : u.park = v.park
  seq : u.seq = v.seq
  acct : u.acct = { v.acct with usable := usableFor u.hup.state u.hup.cold v.acct.shelf v.acct.battery }
  hup : u.hup = (chooseHoldup v).hup
  enable : u.hold.enable = v.hold.enable
  closed : u.hold.closed = v.hold.closed
  leakLatch : u.hold.leakLatch = v.hold.leakLatch
  leak : u.leak = v.leak
  sup : u.sup = v.sup
  journal : u.journal = l.journal
  portA : u.portA = l.portA
  portB : u.portB = l.portB
  poll : u.link.outstanding.map Poll.address = some 32
  timer : u.sense.timer = some v.sense.interval

theorem warmEnd_setUp (l v : State) (r : StoreResult) : SetUp l v (warmEnd l v r) := by
  rw [warmEnd_eq, beginService_eq]
  exact ⟨rfl, rfl, rfl, rfl, rfl, rfl, rfl, rfl, rfl, rfl, rfl, rfl, rfl, rfl, rfl, rfl⟩

theorem warmStart_setUp (s : State) : SetUp (loadedCore s) (warmLeaks s) (warmStart s) := by
  rw [warmStart_eq]
  exact warmEnd_setUp ..

/-! ### The records, the sums and the collections -/

theorem warmLeaks_collectionsAgree (s : State) : (warmLeaks s).collectionsAgree :=
  warmLeaks_keeps (fun _ _ h => h.collectionsAgree) (fun _ _ _ h => h) (warmAdopted_adopting s).collectionsAgree

theorem warmLeaks_recordsLawful (s : State) : (warmLeaks s).recordsLawful :=
  warmLeaks_keeps (fun _ _ h => h.recordsLawful) (fun _ _ _ h => h) (warmAdopted_adopting s).lawful

theorem warmLeaks_committedSums (s : State) : (warmLeaks s).committedSums :=
  warmLeaks_keeps (fun _ _ h => h.committedSums) (fun _ _ _ h => h) (warmAdopted_adopting s).sums

/-- The records, the sums and the collections of a rack as a reset leaves it. -/
structure State.tableSound (s : State) : Prop where
  lawful : s.recordsLawful
  sums : s.committedSums
  collections : s.collectionsAgree

theorem State.dormant.tableSound (h : s.dormant) : s.tableSound := ⟨h.lawful, h.committedSums, h.collectionsAgree⟩

theorem powerOnStart_dormant (s : State) : (powerOnStart s).dormant := by
  unfold powerOnStart
  dsimp only
  rw [beginService_eq]
  exact dormant_congr (s := loadedCore s) rfl rfl rfl rfl rfl (loadedCore_dormant s)

theorem warmStart_tableSound (s : State) : (warmStart s).tableSound :=
  have h := warmStart_setUp s
  ⟨recordsLawful_congr h.trays (warmLeaks_recordsLawful s),
    committedSums_congr h.trays (by rw [h.acct]) (warmLeaks_committedSums s),
    collectionsAgree_congr h.queue (by rw [h.park]) (by unfold State.slotTrays; rw [h.seq])
      (fun n => by rw [tray_congr h.trays]) (warmLeaks_collectionsAgree s)⟩

theorem endReset_tableSound (s : State) : (endReset s).tableSound := by
  unfold endReset
  split
  · exact (powerOnStart_dormant s).tableSound
  · exact warmStart_tableSound s

/-- After a supply or reset event the tables are as before, or sound. -/
theorem resets_table (h : Pinned s t ∨ Stopped s t ∨ Restarted s t) :
    (t.trays = s.trays ∧ t.queue = s.queue ∧ t.park = s.park ∧ t.seq = s.seq ∧ t.acct = s.acct) ∨ t.tableSound := by
  rcases h with ⟨u, c, rfl, _, _⟩ | ⟨st, h, u, rfl, _, _⟩ | ⟨v, _, _, _, rfl⟩
  · exact Or.inl ⟨rfl, rfl, rfl, rfl, rfl⟩
  · exact Or.inr (fresh_dormant ..).tableSound
  · exact Or.inr (endReset_tableSound v)

/-! ### One step -/

/-- What a command keeps that does not speak of the queue, and a millisecond keeps too, a step keeps. -/
theorem step_keeps {P : State → Prop} (pending : ∀ s l, P s → P { s with pending := l })
    (command : ∀ i s t, exec i s = .next t → P s → P t) (idle : ∀ s, P s → P (passMillisecond s)) (hs : P s)
    (h : step s = .next t) : P t := by
  unfold step at h
  split at h
  · exact command _ _ _ h (pending s _ hs)
  · unfold idleStep at h
    split at h
    · exact command _ _ _ h hs
    · injection h with h
      exact h ▸ idle s hs

/-- What the moves of a command keep, and every supply or reset event keeps, a command keeps. -/
theorem exec_keeps {P : State → Prop} (runs : ∀ w s t, Runs w s t → P s → P t)
    (resets : ∀ s t, Pinned s t ∨ Stopped s t ∨ Restarted s t → P s → P t) (i : Instr) (s t : State)
    (h : exec i s = .next t) (hs : P s) : P t := by
  cases hi : suppliesOrResets i
  · obtain ⟨j, hj, _⟩ := exec_runs h hi
    exact runs _ _ _ hj hs
  · exact resets _ _ (exec_resets h hi) hs

theorem passMillisecond_slotTrays (s : State) : (passMillisecond s).slotTrays = s.slotTrays := by
  refine Vector.ext fun i hi => ?_
  simp only [State.slotTrays, passMillisecond, Vector.getElem_map, Option.map_map]
  rfl

/-- Settles O57: lawful records and the sum of the commitments hold across every move, across the rewrites of SET_TRAY and
CLEAR_FAULT, and of a rack that a reset has begun. -/
theorem everyStepKeepsTheRecordsAndTheirSum : Obligations.EveryStepKeepsTheRecordsAndTheirSum := by
  refine ⟨fun s t hs h => ?_, fun s t hs h => ?_⟩
  · refine step_keeps (P := State.recordsLawful) (fun _ _ h => h) (exec_keeps (fun _ _ _ h => h.recordsLawful) ?_)
      (fun _ h => h) hs h
    exact fun s t h hs => (resets_table h).elim (fun h => recordsLawful_congr h.1 hs) fun h => h.lawful
  · refine step_keeps (P := State.committedSums) (fun _ _ h => h) (exec_keeps (fun _ _ _ h => h.committedSums) ?_)
      (fun _ h => h) hs h
    refine fun s t h hs => (resets_table h).elim (fun ⟨ht, _, _, _, ha⟩ => ?_) fun h => h.sums
    exact committedSums_congr ht (congrArg Account.committed ha) hs

/-- Settles O58: every move takes its tray out of one collection and puts it into the one of its new state, and the
collections of a rack that a reset has begun are empty. -/
theorem everyStepKeepsTheCollections : Obligations.EveryStepKeepsTheCollections := by
  intro s t hs h
  refine step_keeps (P := State.collectionsAgree) (fun _ _ h => h) (exec_keeps (fun _ _ _ h => h.collectionsAgree) ?_)
    (fun s => collectionsAgree_congr (s := s) rfl (.refl _) (passMillisecond_slotTrays s) fun _ => rfl) hs h
  refine fun s t h hs => (resets_table h).elim (fun ⟨ht, hq, hp, hseq, _⟩ => ?_) fun h => h.collections
  exact collectionsAgree_congr hq (by rw [hp]) (by unfold State.slotTrays; rw [hseq]) (fun n => by rw [tray_congr ht]) hs

/-! ### The latches -/

/-- A held core takes no command but a supply or reset event: its hold domain stays. -/
theorem exec_held {i : Instr} (h : exec i s = .next t) (hi : suppliesOrResets i = false) (hs : s.sup.held = true) :
    t.hold = s.hold := by
  have core (f : State → State) : coreEvent f s = s := if_pos hs
  have request (j : Instr) : (runRequest j s).hold = s.hold := by
    cases j <;> simp only [runRequest, statusRequest, trayRequest, stationRequest, zoneRequest, planRequest,
      snapshotRequest, journalRequest, alertsRequest, setAlertsRequest, ackAlertsRequest, claimLeaseRequest,
      renewLeaseRequest, dropLeaseRequest, grantRequest, releaseRequest, setTrayRequest, clearFaultRequest,
      planOpenRequest, planPointRequest, planPutRequest, planLengthRequest, editStaging, planCommitRequest,
      planAbortRequest, setShelfRequest, setLimitsRequest, setTimingRequest, startRackRequest, clearZoneRequest,
      clearTrapRequest, saveConfigRequest, takeRequest_held hs, portTake_held hs, id]
  have run {j : Instr} (h : exec j s = .next t) (he : exec j s = .next (runRequest j s)) : t.hold = s.hold := by
    obtain rfl : runRequest j s = t := by injection he.symm.trans h
    exact request j
  cases i with
  | unknownRequest p bytes =>
    injection h with h
    subst h
    unfold rawWrite
    rw [if_pos hs]
  | writeRefusedExecuting p =>
    injection h with h
    subst h
    unfold refusedWrite
    rw [hs]
    rfl
  | storeWriteComplete =>
    injection h with h
    subst h
    unfold storeWritten
    split
    · rfl
    · exact respond_hold ..
  | leaseLapsed p =>
    injection h with h
    subst h
    unfold leaseLapse
    rw [hs]
    rfl
  | pfailAsserted =>
    injection h with h
    subst h
    unfold pfailRise
    split
    · rfl
    · show (coreEvent acLost _).hold = _
      unfold coreEvent
      rw [if_pos hs]
  | pfailDeasserted =>
    injection h with h
    subst h
    unfold pfailFall
    split
    · show (coreEvent acReturned _).hold = _
      unfold coreEvent
      rw [if_pos hs]
    · rfl
  | strayFrame bytes => injection h with h; rw [← h]
  | replyFrame | replyTimeout | paceExpiry | windowExpiry | qualificationExpiry | stageTick | conversion | censusClose =>
    injection h with h
    rw [← h, core]
  | vstbyRise | vcoreFall | vcoreRecovery | startDelayExpiry | resetNAsserted | resetNDeasserted | vstbyFall =>
    exact absurd hi (by decide)
  | _ => exact run h rfl

/-- The latches are sound at a running core when they tell the trays and the zones, and at a held one when the two latches of
each zone agree and a POWER_ON found them fresh. -/
theorem latchesSound_of_running (h : s.sup.held = false) : s.latchesSound ↔
    s.enablesTell ∧ s.valvesTell ∧ s.journalBounded := by
  unfold State.latchesSound State.enablesAgree State.valvesAgree State.powerOnFresh
  simp [h, State.enablesTell, State.valvesTell]

theorem latchesSound_of_held (h : s.sup.held = true) : s.latchesSound ↔
    (∀ z : ZoneId, s.hold.closed[z] = s.hold.leakLatch[z]) ∧ s.journalBounded ∧ s.powerOnFresh := by
  unfold State.latchesSound State.enablesAgree State.valvesAgree
  simp [h]

theorem runs_latchesSound {i : Instr} (h : exec i s = .next t) (hi : suppliesOrResets i = false) (hs : s.latchesSound) :
    t.latchesSound := by
  obtain ⟨j, hj, _⟩ := exec_runs h hi
  cases hh : s.sup.held
  · rw [latchesSound_of_running hh] at hs
    rw [latchesSound_of_running (hj.held.trans hh)]
    exact ⟨hj.enablesTell hs.1, hj.valvesTell hs.2.1, hj.journalBounded hs.2.2⟩
  · have hold := exec_held h hi hh
    rw [latchesSound_of_held hh] at hs
    rw [latchesSound_of_held (hj.held.trans hh)]
    unfold State.powerOnFresh
    rw [hold, hj.held]
    exact ⟨hs.1, hj.journalBounded hs.2.1, hs.2.2⟩

theorem warmAdopted_leak (s : State) : (warmAdopted s).leak = (loadedCore s).leak :=
  warmAdopted_keeps (P := fun v => v.leak = (loadedCore s).leak) (fun _ _ h hv => h.sameUnits.leak.trans hv)
    (fun _ _ _ h => h) rfl

/-- Neither the adoption nor the restored leaks write a valve latch or a leak latch. -/
theorem warmAdopted_valves (s : State) :
    (warmAdopted s).hold.closed = s.hold.closed ∧ (warmAdopted s).hold.leakLatch = s.hold.leakLatch :=
  warmAdopted_keeps (P := fun v => v.hold.closed = s.hold.closed ∧ v.hold.leakLatch = s.hold.leakLatch)
    (fun _ _ h hv => ⟨h.valves.1.trans hv.1, h.valves.2.trans hv.2⟩) (fun _ _ _ h => h) ⟨rfl, rfl⟩

theorem warmLeaks_valves (s : State) :
    (warmLeaks s).hold.closed = s.hold.closed ∧ (warmLeaks s).hold.leakLatch = s.hold.leakLatch :=
  warmLeaks_keeps (P := fun v => v.hold.closed = s.hold.closed ∧ v.hold.leakLatch = s.hold.leakLatch)
    (fun _ _ h hv => ⟨h.valves.1.trans hv.1, h.valves.2.trans hv.2⟩) (fun _ _ _ h => h) (warmAdopted_valves s)

/-- After a warm restart a zone is in LEAK when its leak latch is set, and DRY otherwise (R160 step 3). -/
theorem warmStart_zone (s : State) (z : ZoneId) : (warmStart s).zone z =
    { (loadedCore s).zone z with
      state := if s.hold.leakLatch[z] then .leak else .dry, wetCount := 0, lastClass := none } := by
  rw [zone_congr (warmStart_setUp s).leak]
  unfold warmLeaks
  rw [restoreAll_zone _ nodup_allZones, zone_congr (warmAdopted_leak s), (warmAdopted_valves s).2, loadedCore_zone]
  simp only [mem_allZones, true_and]
  cases s.hold.leakLatch[z] <;> rfl

theorem warmLeaks_enablesTell (s : State) : (warmLeaks s).enablesTell :=
  warmLeaks_keeps (fun _ _ h => h.enablesTell) (fun _ _ _ h => h) (warmAdopted_enablesTell s)

/-- Neither the adoption nor the restored leaks write the queue of commands, the pins, the sense record or the capacities. -/
theorem warmLeaks_units (s : State) : (warmLeaks s).pending = s.pending ∧ (warmLeaks s).sup = (loadedCore s).sup ∧
    (warmLeaks s).sense = (loadedCore s).sense ∧ (warmLeaks s).acct.shelf = 0 ∧ (warmLeaks s).acct.battery = 0 ∧
    (warmLeaks s).acct.mode = .recovering := by
  let P (v : State) : Prop := v.pending = s.pending ∧ v.sup = (loadedCore s).sup ∧ v.sense = (loadedCore s).sense ∧
    v.acct.shelf = 0 ∧ v.acct.battery = 0 ∧ v.acct.mode = .recovering
  have he (v u : State) (h : Evolves v u) (hv : P v) : P u := by
    obtain ⟨h1, h2, h3, h4, h5, h6⟩ := hv
    have hu := h.sameUnits
    have hs := hu.shelf
    simp only [Prod.mk.injEq] at hs
    exact ⟨hu.pending.trans h1, hu.sup.trans h2, hu.sense.trans h3, hs.1.trans h4, hs.2.1.trans h5,
      hs.2.2.1.trans h6⟩
  exact warmLeaks_keeps (P := P) he (fun _ _ _ h => h)
    (warmAdopted_keeps (P := P) he (fun _ _ _ h => h) ⟨rfl, rfl, rfl, rfl, rfl, rfl⟩)

theorem warmStart_held (s : State) : (warmStart s).sup.held = false := by
  rw [(warmStart_setUp s).sup, (warmLeaks_units s).2.1]
  rfl

theorem warmStart_latchesSound (h : ∀ z : ZoneId, s.hold.closed[z] = s.hold.leakLatch[z]) :
    (warmStart s).latchesSound := by
  have hu := warmStart_setUp s
  rw [latchesSound_of_running (warmStart_held s)]
  refine ⟨enablesTell_congr hu.trays hu.enable (warmLeaks_enablesTell s), fun z => ?_, ?_⟩
  · rw [hu.closed, hu.leakLatch, (warmLeaks_valves s).1, (warmLeaks_valves s).2, warmStart_zone, h z]
    cases s.hold.leakLatch[z] <;> exact ⟨rfl, rfl⟩
  · unfold State.journalBounded
    rw [hu.journal, hu.portA, hu.portB]
    exact ⟨Nat.zero_le _, Nat.le_refl _, Nat.le_refl _⟩

/-- The end of a POWER_ON writes the holdup record and the counts of the reset record beside what begins then. -/
theorem powerOnStart_eq (s : State) : powerOnStart s = beginService { loadedCore s with
    hold := { s.hold with adopted := 0, restored := 0, result := s.store.result }
    hup := (powerOnStart s).hup } := by
  unfold powerOnStart
  rw [beginService_eq, beginService_eq]
  rfl

theorem powerOnStart_latchesSound (he : s.hold.enable = Hold.fresh.enable) (hc : s.hold.closed = Hold.fresh.closed)
    (hl : s.hold.leakLatch = Hold.fresh.leakLatch) : (powerOnStart s).latchesSound := by
  have hz (z : ZoneId) : ((powerOnStart s).zone z) = (loadedCore s).zone z := by
    rw [powerOnStart_eq, beginService_eq]
    rfl
  have held : (powerOnStart s).sup.held = false := by
    rw [powerOnStart_eq, beginService_eq]
    rfl
  rw [latchesSound_of_running held]
  refine ⟨fun n => ?_, fun z => ?_, ?_⟩
  · rw [(powerOnStart_dormant s).idle, powerOnStart_eq, beginService_eq]
    show s.hold.enable[n] = _
    rw [he]
    simp [Hold.fresh, TrayState.enabled]
  · rw [hz, loadedCore_zone, powerOnStart_eq, beginService_eq]
    show s.hold.closed[z] = s.hold.leakLatch[z] ∧ s.hold.closed[z] = _
    rw [hc, hl]
    simp [Hold.fresh]
  · rw [powerOnStart_eq, beginService_eq]
    exact ⟨Nat.zero_le _, Nat.le_refl _, Nat.le_refl _⟩

theorem resets_latchesSound (h : Pinned s t ∨ Stopped s t ∨ Restarted s t) (hs : s.latchesSound) : t.latchesSound := by
  have agree : ∀ z : ZoneId, s.hold.closed[z] = s.hold.leakLatch[z] := fun z => (hs.2.1 z).1
  rcases h with ⟨u, c, rfl, hu, hc⟩ | ⟨st, h, u, rfl, hu, hh⟩ | ⟨v, hp, hh, hheld, rfl⟩
  · obtain ⟨he, hv, hj, hf⟩ := hs
    exact ⟨fun h => he (hu ▸ h), fun z => ⟨(hv z).1, fun h => (hv z).2 (hu ▸ h)⟩, hj, fun h hp => hf (hu ▸ h) (hc hp)⟩
  · rw [latchesSound_of_held (show (State.fresh s.pending st h u s.draws).sup.held = true from hu)]
    refine ⟨?_, ⟨Nat.zero_le _, Nat.le_refl _, Nat.le_refl _⟩, fun _ hp => ?_⟩
    · rcases hh with rfl | ⟨d, p, rfl⟩
      · exact fun z => rfl
      · exact agree
    · rcases hh with rfl | ⟨d, p, rfl⟩
      · exact ⟨rfl, rfl, rfl⟩
      · exact absurd hp (by simp [State.fresh])
  · obtain ⟨u, c, rfl, hu, _⟩ := hp
    have hsh : s.sup.held = true := hu.symm.trans hheld
    unfold endReset
    split
    · rename_i hpo
      rw [hh] at hpo
      obtain ⟨he, hc, hl⟩ := hs.2.2.2 hsh hpo
      exact powerOnStart_latchesSound he hc hl
    · exact warmStart_latchesSound agree

/-- Settles O56: at a running core every move writes the enable latch with the state and the two latches of a zone with its LEAK;
a held core keeps its latches, and the end of a reset sets the rack up from them. -/
theorem everyStepKeepsTheLatchesSound : Obligations.EveryStepKeepsTheLatchesSound := by
  intro s t hs h
  refine step_keeps (P := State.latchesSound) (fun _ _ h => h) (fun i s t h hs => ?_) (fun _ h => h) hs h
  cases hi : suppliesOrResets i
  · exact runs_latchesSound h hi hs
  · exact resets_latchesSound (exec_resets h hi) hs

end Sys2Proof.Machine
end

section
/-! SUPPORT. The step and the queue, what each command leaves alone, and the machine right after reset. -/

namespace Sys2Proof.Machine

variable {s t u : State}

/-- Settles O1: the step's own equation on a queue with a front. -/
theorem stepRunsFrontCommand : Obligations.StepRunsFrontCommand := fun _ _ _ => rfl

/-- No command stops the part. -/
theorem exec_next (i : Instr) (s : State) : ∃ t, exec i s = .next t := by
  cases i
  all_goals exact ⟨_, rfl⟩

theorem warmEnd_pending (l v : State) (r : StoreResult) : (warmEnd l v r).pending = v.pending := by
  rw [warmEnd_eq, beginService_eq]
  rfl

theorem warmStart_pending (s : State) : (warmStart s).pending = s.pending := by
  rw [warmStart_eq, warmEnd_pending, (warmLeaks_units s).1]

theorem endReset_pending (s : State) : (endReset s).pending = s.pending := by
  unfold endReset
  split
  · rw [powerOnStart_eq, beginService_eq]
    rfl
  · exact warmStart_pending s

/-- Settles O2: what runs in a command never writes the queue, and no reset event does. -/
theorem everyCommandCompletesAndKeepsTheQueue : Obligations.EveryCommandCompletesAndKeepsTheQueue := by
  intro i s
  obtain ⟨t, ht⟩ := exec_next i s
  refine ⟨t, ht, ?_⟩
  cases hi : suppliesOrResets i
  · obtain ⟨j, hj, _⟩ := exec_runs ht hi
    exact hj.same (x := .pending) rfl
  · rcases exec_resets ht hi with ⟨u, c, rfl, _⟩ | ⟨st, h, u, rfl, _⟩ | ⟨v, ⟨u, c, rfl, _⟩, _, _, rfl⟩
    · rfl
    · rfl
    · exact endReset_pending _

/-- Settles O3: each part of the state that the table of writes does not give a command is left as it was. -/
theorem commandsLeaveOtherUnitsAlone : Obligations.CommandsLeaveOtherUnitsAlone := by
  intro i s t hwf h hr
  obtain ⟨j, hj, hi⟩ := exec_runs h hr
  obtain rfl : j = i := hi hwf
  have same {x : Part} (hx : writes j x = false) : x.same s t := hj.same hx
  refine ⟨same (x := .record) rfl, ?_, ?_, ?_, ?_, ?_, ?_, ?_, ?_, ?_, ?_, ?_, ?_, fun p => ⟨fun hp => ?_, fun hp => ?_, fun hn hp => ?_⟩⟩
  · cases j <;> first | exact True.intro | exact same (x := .pins) rfl
  · have config (hx : writes j .config = false) : ∀ n : TrayId, t.cfg n = s.cfg n ∧ (t.tray n).code = (s.tray n).code := by
      simpa only [Part.same, funext_iff, Prod.mk.injEq] using same (x := .config) hx
    cases j <;> first | exact True.intro | exact config rfl
  · have shelf (hx : writes j .shelf = false) : t.acct.redundancy = s.acct.redundancy ∧
        t.acct.autoRestart = s.acct.autoRestart := by
      simpa only [Part.same, Prod.mk.injEq] using same (x := .shelf) hx
    cases j <;> first | exact True.intro | exact shelf rfl
  · cases j <;> first | exact True.intro | exact same (x := .leak) rfl
  · cases j <;> first | exact True.intro | exact same (x := .sense) rfl
  · cases j <;> first | exact True.intro | exact same (x := .stations) rfl
  · have poll (hx : writes j .poll = false) : t.link.outstanding = s.link.outstanding ∧
        t.link.replyTimer = s.link.replyTimer ∧ t.link.rounds = s.link.rounds := by
      simpa only [Part.same, Prod.mk.injEq] using same (x := .poll) hx
    cases j <;> first | exact True.intro | exact poll rfl
  · cases j <;> first | exact True.intro | exact same (x := .cutoff) rfl
  · have timing (hx : writes j .timing = false) : t.link.replyTimeout = s.link.replyTimeout ∧
        t.hup.qualification = s.hup.qualification ∧ (t.hup.s1, t.hup.s2, t.hup.s3) = (s.hup.s1, s.hup.s2, s.hup.s3) ∧
        (t.seq.paceMode, t.seq.paceInterval, t.seq.k) = (s.seq.paceMode, s.seq.paceInterval, s.seq.k) ∧
        (t.seq.w0, t.seq.w1, t.seq.w2) = (s.seq.w0, s.seq.w1, s.seq.w2) := by
      simpa only [Part.same, Prod.mk.injEq] using same (x := .timing) hx
    cases j <;> first | exact True.intro | exact timing rfl
  · have plan (hx : writes j .plan = false) : t.seq.planRev = s.seq.planRev ∧ t.seq.keys = s.seq.keys ∧
        t.seq.plan.map (fun e => (e.tray, e.code)) = s.seq.plan.map (fun e => (e.tray, e.code)) := by
      simpa only [Part.same, Prod.mk.injEq] using same (x := .plan) hx
    cases j <;> first | exact True.intro | exact plan rfl
  · cases j <;> first | exact True.intro | exact same (x := .staging) rfl
  · cases j <;> first | exact True.intro | exact same (x := .store) rfl
  · have masks (hx : writes j (.masks p) = false) : (t.port p).enable = (s.port p).enable ∧
        (t.port p).urgent = (s.port p).urgent := by
      simpa only [Part.same, Prod.mk.injEq] using same (x := .masks p) hx
    refine masks ?_
    cases j <;> first | rfl | exact beq_false_of_ne hp
  · refine same (x := .lease p) ?_
    cases j <;> first | rfl | exact beq_false_of_ne hp
  · refine same (x := .answer p) ?_
    show (_ || _) = false
    rw [Bool.or_eq_false_iff]
    exact ⟨beq_false_of_ne hn, beq_false_of_ne hp⟩

/-! ### The machine right after reset -/

theorem reset_tray (n : TrayId) : State.reset.tray n = Tray.fresh .default .matching := by
  simp [State.tray, State.reset, State.fresh]

/-- Settles O4: the fields of State.reset, one by one. -/
theorem resetLeavesTheRackDark : Obligations.ResetLeavesTheRackDark := by
  refine ⟨rfl, fun n => ⟨reset_tray n, ?_⟩, rfl, rfl, fun j => ?_, rfl, rfl, ⟨rfl, rfl, rfl, rfl, rfl⟩, ⟨rfl, rfl, rfl, rfl, rfl⟩,
    fun z => ⟨?_, ?_, ?_, ?_, ?_⟩, fun a => ?_, rfl, fun p => by cases p <;> rfl, rfl, rfl, rfl, rfl, rfl, rfl, rfl, rfl⟩
  · exact Vector.getElem_replicate ..
  · exact Vector.getElem_replicate ..
  all_goals simp [State.reset, State.fresh, State.zone, State.station, Hold.fresh]

theorem reset_dormant : State.reset.dormant :=
  dormant_congr (s := State.fresh [] { image := none, writing := none } Hold.fresh State.reset.sup 0) rfl rfl rfl rfl rfl
    (fresh_dormant ..)

/-- Settles O60: at reset every tray is IDLE, every latch clear, the journal empty and nothing is committed. -/
theorem resetIsSound : Obligations.ResetIsSound := by
  have h := reset_dormant
  have idle (n : TrayId) (st : TrayState) (hst : st ≠ .idle) : (State.reset.tray n).state ≠ st := by
    rw [h.idle]
    exact hst.symm
  refine ⟨(latchesSound_of_running rfl).mpr ⟨fun n => ?_, fun z => ?_, ?_⟩, h.lawful, h.committedSums, h.collectionsAgree,
    ⟨rfl, rfl, fun _ => rfl, fun _ => rfl, fun h => absurd h (by decide), fun h => absurd h (by decide), fun n =>
      ⟨fun _ => ⟨idle n _ (by decide), idle n _ (by decide)⟩, fun _ _ => ⟨idle n _ (by decide), idle n _ (by decide)⟩⟩⟩,
    rfl, fun n _ hst => ?_, fun _ => Nat.le_refl _⟩
  · rw [h.idle]
    exact Vector.getElem_replicate ..
  · simp [State.reset, State.fresh, State.zone, Hold.fresh]
  · exact ⟨Nat.zero_le _, Nat.le_refl _, Nat.le_refl _⟩
  · exact hst.elim (fun e => absurd e (idle n _ (by decide))) fun e => absurd e (idle n _ (by decide))

/-! ### CLEAR_TRAP -/

/-- Settles O34: CLEAR_TRAP's body, run at a leased port. -/
theorem clearTrapEmptiesTheTrap : Obligations.ClearTrapEmptiesTheTrap := by
  intro s p tag h
  show Host.Outcome.next (clearTrapRequest p tag s) = _
  unfold clearTrapRequest
  rw [takeRequest_leased h]
  rfl

end Sys2Proof.Machine
end

section
/-! SUPPORT. The read requests: the payloads' lengths, and what a read that locks a tray leaves (R8, R18, R58, R139). -/

namespace Sys2Proof.Machine

variable {s t u : State}

/-! ### Parameters out of range -/

theorem trayOf_none {b : Byte} (h : 31 < b.toNat) : trayOf b = none := dif_neg (by omega)

theorem zoneOf_none {b : Byte} (h : 7 < b.toNat) : zoneOf b = none := dif_neg (by omega)

theorem stationOf_none {b : Byte} (h : 41 < b.toNat) : stationOf b = none := dif_neg (by omega)

/-! ### The lengths of the fields -/

@[simp] theorem bytes2_length (w : Half) : (bytes2 w).length = 2 := rfl
@[simp] theorem nat2_length (n : Nat) : (nat2 n).length = 2 := rfl
@[simp] theorem nat3_length (n : Nat) : (nat3 n).length = 3 := rfl
@[simp] theorem int2_length (i : Int) : (int2 i).length = 2 := rfl
@[simp] theorem optNat2_length (n : Option Nat) : (optNat2 n).length = 2 := by cases n <;> rfl
@[simp] theorem slotBytes_length (w : Option Slot) : (slotBytes w).length = 5 := by cases w <;> rfl
@[simp] theorem sums_length (s : State) : s.sums.length = 15 := rfl
@[simp] theorem stateCounts_length (s : State) (f : TrayId → Bool) : (s.stateCounts f).length = 7 := by
  simp [State.stateCounts, trayStates]
@[simp] theorem trap_payload_length (r : Trap) : r.payload.length = 2 := by
  unfold Trap.payload
  split <;> rfl

/-- Fields of one length each make a message of that many times their number. -/
theorem flatMap_length {α : Type} {f : α → List Byte} {n : Nat} (h : ∀ a, (f a).length = n) (l : List α) :
    (l.flatMap f).length = l.length * n := by
  simp [List.length_flatMap, h]

theorem status0_length (s : State) : s.status0.length = 32 := by simp [State.status0]

theorem status1_length (s : State) : s.status1.length = 38 := by
  simp [State.status1, State.zoneStates, flatMap_length slotBytes_length]

theorem status2_length (s : State) : s.status2.length = 16 := by simp [State.status2]

theorem status3_length (s : State) : s.status3.length = 38 := by
  have h (v : Option (Nat × Half)) : (optNat2 (v.map Prod.fst) ++ optNat2 (v.map fun x => x.2.toNat)).length = 4 := by simp
  unfold State.status3
  rw [List.length_append, flatMap_length h]
  simp

/-- READ_STATUS has a part of its own length for each of the numbers 0 to 3. -/
theorem statusPart_some (s : State) {part : Byte} (h : part.toNat ≤ 3) : ∃ bytes, s.statusPart part = some bytes ∧
    bytes.length = [32, 38, 16, 38].getD part.toNat 0 ∧ bytes.take 2 = bytes2 s.sense.census := by
  unfold State.statusPart
  generalize part.toNat = n at h
  match n with
  | 0 => exact ⟨_, rfl, status0_length s, rfl⟩
  | 1 => exact ⟨_, rfl, status1_length s, rfl⟩
  | 2 => exact ⟨_, rfl, status2_length s, rfl⟩
  | 3 => exact ⟨_, rfl, status3_length s, rfl⟩
  | n + 4 => omega

theorem statusPart_none (s : State) {part : Byte} (h : 3 < part.toNat) : s.statusPart part = none := by
  unfold State.statusPart
  generalize part.toNat = n at h
  match n with
  | 0 | 1 | 2 | 3 => omega
  | n + 4 => rfl

theorem snapshotPart_some (b : Published) {part : Byte} (h : part.toNat ≤ 2) : ∃ bytes, b.part part = some bytes ∧
    bytes.take 2 = bytes2 b.census := by
  unfold Published.part
  generalize part.toNat = n at h
  match n with
  | 0 | 1 | 2 => exact ⟨_, rfl, rfl⟩
  | n + 3 => omega

theorem snapshotPart_none (b : Published) {part : Byte} (h : 2 < part.toNat) : b.part part = none := by
  unfold Published.part
  generalize part.toNat = n at h
  match n with
  | 0 | 1 | 2 => omega
  | n + 3 => rfl

/-! ### The reads -/

/-- A command of a port that needs no lease is its body and the response. -/
theorem next_free {p : Port} (h : s.takes p) (tag : Byte) {body : State → State × Answer} {v : State} {a : Answer}
    (hb : body s = (v, a)) : (.next (takeRequest p tag false body s) : Host.Outcome State Fault Refusal) =
      .next (respond p tag a v) := by
  rw [takeRequest_free h, hb]

/-- A command of a leased port is its body and the response. -/
theorem next_leased {p : Port} (h : s.leased p) (tag : Byte) {body : State → State × Answer} {v : State} {a : Answer}
    (hb : body s = (v, a)) : (.next (takeRequest p tag true body s) : Host.Outcome State Fault Refusal) =
      .next (respond p tag a v) := by
  rw [takeRequest_leased h, hb]

/-- An answer after an event that owes nothing. -/
theorem answerAfter_none (st : Status) (f : State → List Byte) (h : s.agenda = Agenda.none) :
    answerAfter st f s = (s, ⟨st, f s⟩) := by
  unfold answerAfter
  rw [finish_none h]

theorem readStatus_returns {p : Port} (tag part : Byte) (h : s.takes p) :
    (part.toNat ≤ 3 → ∃ bytes, s.statusPart part = some bytes ∧
      bytes.length = [32, 38, 16, 38].getD part.toNat 0 ∧ bytes.take 2 = bytes2 s.sense.census ∧
      exec (.readStatus p tag part) s = .next (respond p tag ⟨.ok, bytes⟩ s)) ∧
    (3 < part.toNat → exec (.readStatus p tag part) s = .next (respond p tag ⟨.range, []⟩ s)) := by
  refine ⟨fun hp => ?_, fun hp => next_free h tag ?_⟩
  · obtain ⟨bytes, hb, hl, hc⟩ := statusPart_some s hp
    refine ⟨bytes, hb, hl, hc, next_free h tag ?_⟩
    simp only [hb]
    rfl
  · simp only [statusPart_none s hp]
    rfl

theorem readTray_returns {p : Port} (tag b : Byte) (h : s.takes p) :
    (∀ t, trayOf b = some t → (s.tray t).failsCheck = false →
      exec (.readTray p tag b) s = .next (respond p tag ⟨.ok, s.trayPayload t⟩ s)) ∧
    (31 < b.toNat → exec (.readTray p tag b) s = .next (respond p tag ⟨.range, []⟩ s)) := by
  refine ⟨fun t ht hc => next_free h tag ?_, fun hb => next_free h tag ?_⟩
  · simp only [ht, checkRead_passes hc]
    exact answerAfter_none _ _ h.1.2
  · simp only [trayOf_none hb]
    rfl

theorem readStation_returns {p : Port} (tag b : Byte) (h : s.takes p) :
    (∀ a, stationOf b = some a → exec (.readStation p tag b) s = .next (respond p tag ⟨.ok, s.stationPayload a⟩ s)) ∧
    (41 < b.toNat → exec (.readStation p tag b) s = .next (respond p tag ⟨.range, []⟩ s)) := by
  refine ⟨fun a ha => next_free h tag ?_, fun hb => next_free h tag ?_⟩
  · simp only [ha]
    rfl
  · simp only [stationOf_none hb]
    rfl

theorem readZone_returns {p : Port} (tag b : Byte) (h : s.takes p) :
    (∀ z, zoneOf b = some z → s.codesPass →
      exec (.readZone p tag b) s = .next (respond p tag ⟨.ok, s.zonePayload z⟩ s)) ∧
    (7 < b.toNat → exec (.readZone p tag b) s = .next (respond p tag ⟨.range, []⟩ s)) := by
  refine ⟨fun z hz hc => next_free h tag ?_, fun hb => next_free h tag ?_⟩
  · simp only [hz, readAll_passes hc]
    exact answerAfter_none _ _ h.1.2
  · simp only [zoneOf_none hb]
    rfl

theorem readSnapshot_returns {p : Port} (tag part : Byte) (h : s.takes p) :
    (part.toNat ≤ 2 → ∃ bytes, s.sense.published.part part = some bytes ∧
      bytes.take 2 = bytes2 s.sense.published.census ∧
      exec (.readSnapshot p tag part) s = .next (respond p tag ⟨.ok, bytes⟩ s)) ∧
    (2 < part.toNat → exec (.readSnapshot p tag part) s = .next (respond p tag ⟨.range, []⟩ s)) := by
  refine ⟨fun hp => ?_, fun hp => next_free h tag ?_⟩
  · obtain ⟨bytes, hb, hc⟩ := snapshotPart_some s.sense.published hp
    refine ⟨bytes, hb, hc, next_free h tag ?_⟩
    simp only [hb]
    rfl
  · simp only [snapshotPart_none _ hp]
    rfl

/-- Settles O9: one lemma for each of the five reads. -/
theorem readsReturnRecordsAndChangeNone : Obligations.ReadsReturnRecordsAndChangeNone :=
  ⟨fun _ _ tag part h => readStatus_returns tag part h, fun _ _ tag b h => readTray_returns tag b h,
    fun _ _ tag b h => readStation_returns tag b h, fun _ _ tag b h => readZone_returns tag b h,
    fun _ _ tag part h => readSnapshot_returns tag part h⟩

/-! ### A read that locks its tray -/

theorem respond_tray (p : Port) (tag : Byte) (a : Answer) (s : State) (t : TrayId) :
    (respond p tag a s).tray t = s.tray t := tray_congr (respond_trays ..) t

theorem respond_trayPayload (p : Port) (tag : Byte) (a : Answer) (s : State) (t : TrayId) :
    (respond p tag a s).trayPayload t = s.trayPayload t := by cases p <;> rfl

/-- Settles O10: the read is the lock of its tray and then further locks, which keep the record, the sums and the trap. -/
theorem failedCheckLocksTheTray : Obligations.FailedCheckLocksTheTray := by
  intro s p tag b t h ht hcode hlock hz
  have hf : (s.tray t).failsCheck = true := by simp [Tray.failsCheck, hcode, hlock]
  have one : Locks s (lockOne none t s) := lockOne_locks hz hlock
  have more : Locks (lockOne none t s) (checkRead t s) := checkRead_of_fails hf hz
  have all := one.trans more
  have eq := lockOne_eq_of_noLeak t hz
  have trap : (lockOne none t s).trap.latched = if s.trap.latched.isSome then s.trap.latched else some (.tray t) := by
    rw [eq]
    exact trapFailure_latched _ _
  have latched : (lockOne none t s).trap.latched.isSome = true := by
    rw [trap]
    split
    · assumption
    · rfl
  have flags (q : Port) : ((lockOne none t s).port q).flags &&& 0x1000 = 0x1000 := by
    rw [eq, raise_port]
    exact setFlag_integrity _
  have owed : (checkRead t s).agenda = Agenda.none := all.agenda.trans h.1.2
  have record : (checkRead t s).tray t = (s.tray t).lockedNow := by
    rcases all.tray t with e | ⟨_, e⟩
    · exact absurd (e ▸ checkRead_locks t hf) (by simp [hlock])
    · exact e
  have port (q : Port) (st : Status) (bytes : List Byte) : ((respond p tag ⟨st, bytes⟩ (checkRead t s)).port q).flags =
      ((checkRead t s).port q).flags := by
    by_cases hq : q = p
    · rw [hq, respond_port_self]
    · rw [respond, setPort_port_of_ne hq]
  refine ⟨_, next_free h tag (by simp only [ht]; exact answerAfter_none _ _ owed), ?_, ?_, ?_, ?_, fun hn => ?_, fun q => ?_, ?_⟩
  · rw [respond_tray]
    exact record
  · rw [respond_acct, all.acct]
  · rw [respond_hold, all.hold]
  · rw [respond_trap, more.trap latched]
    exact latched
  · rw [respond_trap, more.trap latched, trap, hn]
    rfl
  · rw [port]
    exact more.flags q (flags q)
  · rw [respond_port_self, respond_trayPayload]

/-! ### The plan -/

theorem planPart0_length (s : State) (p : Port) : (s.planPart0 p).length = 37 := by
  unfold State.planPart0
  dsimp only
  split <;> simp

theorem planPart1_length (s : State) (p : Port) : (s.planPart1 p).length = 34 := by
  unfold State.planPart1
  dsimp only
  split <;> simp

/-- A port that does not hold the staging is shown neither its length nor its pointer. -/
theorem planPart0_foreign {p : Port} (h : s.seq.staging.holder ≠ some p) :
    ((s.planPart0 p).drop 3).take 2 = [0xFF, 0xFF] := by
  unfold State.planPart0
  dsimp only
  rw [if_neg (by simpa using h)]
  rfl

theorem planPart1_foreign {p : Port} (h : s.seq.staging.holder ≠ some p) :
    (s.planPart1 p).drop 2 = List.replicate 32 0xFF := by
  unfold State.planPart1
  dsimp only
  rw [if_neg (by simpa using h)]
  rfl

/-! ### The failing entries of the plan, reported one after the other -/

/-- An entry after the test of its code. -/
def PlanEntry.tested (e : PlanEntry) : PlanEntry := if e.code = .failing then { e with reported := true } else e

/-- An entry that fails its check and has not been reported. -/
def PlanEntry.news (e : PlanEntry) : Bool := e.code == .failing && !e.reported

theorem PlanEntry.tested_of_news {e : PlanEntry} (h : e.news = true) : e.tested = { e with reported := true } := by
  unfold PlanEntry.news at h
  rw [Bool.and_eq_true, beq_iff_eq] at h
  exact if_pos h.1

theorem PlanEntry.tested_of_old {e : PlanEntry} (h : e.news = false) : e.tested = e := by
  obtain ⟨t, c, r⟩ := e
  cases c <;> cases r <;> first | rfl | exact absurd h Bool.false_ne_true.symm

/-- The trap after one failure (R19). -/
def Trap.take (r : Trap) (x : TrapSource) : Trap :=
  match r.latched with
  | none => { latched := some x, more := false }
  | some _ => { r with more := true }

theorem trapFailure_eq (x : TrapSource) (s : State) : trapFailure x s = { s with trap := s.trap.take x } := by
  unfold trapFailure Trap.take
  rcases s.trap with ⟨_ | x, m⟩ <;> rfl

theorem afterEntries_append (r : Trap) (is : List Nat) (i : Nat) :
    r.afterEntries (is ++ [i]) = (r.afterEntries is).take (.plan i) := by
  obtain ⟨l, m⟩ := r
  cases l <;> cases is <;> simp [Trap.afterEntries, Trap.take]

/-- The journal's entry of a failing plan entry. -/
def State.reportEntered (s : State) (i : Nat) : Entry :=
  { seq := s.journal.next, census := s.sense.census, kind := .integrity, subject := none, value := some (min i 65535),
    reason := none }

/-- The report of one failing entry. -/
def reportOne (i : Nat) (e : PlanEntry) (s : State) : State :=
  raise .integrity (journalise .integrity none (some i) none
    { s.setPlan (s.seq.plan.set i { e with reported := true }) with trap := s.trap.take (.plan i) })

theorem reportEntry_news {i : Nat} {e : PlanEntry} (h : s.seq.plan[i]? = some e) (hn : e.news = true) :
    reportEntry i s = reportOne i e s := by
  unfold reportEntry
  rw [h]
  refine (if_pos hn).trans ?_
  dsimp only
  rw [trapFailure_eq]
  rfl

theorem reportEntry_old {i : Nat} {e : PlanEntry} (h : s.seq.plan[i]? = some e) (hn : e.news = false) :
    reportEntry i s = s := by
  unfold reportEntry
  rw [h]
  exact if_neg (ne_true_of_eq_false hn)

/-- The failing entries not reported before, among the first n positions. -/
def State.unreportedTo (s : State) (n : Nat) : List Nat :=
  (List.range n).filter fun i => (s.seq.plan[i]?).any PlanEntry.news

theorem unreported_eq (s : State) : s.unreported = s.unreportedTo s.seq.plan.length := rfl

theorem unreportedTo_news {n : Nat} {e : PlanEntry} (h : s.seq.plan[n]? = some e) (hn : e.news = true) :
    s.unreportedTo (n + 1) = s.unreportedTo n ++ [n] := by
  simp [State.unreportedTo, List.range_succ, List.filter_append, h, hn]

theorem unreportedTo_old {n : Nat} {e : PlanEntry} (h : s.seq.plan[n]? = some e) (hn : e.news = false) :
    s.unreportedTo (n + 1) = s.unreportedTo n := by
  simp [State.unreportedTo, List.range_succ, List.filter_append, h, hn]

theorem unreportedTo_length_le (s : State) (n : Nat) : (s.unreportedTo n).length ≤ n :=
  (List.length_filter_le ..).trans_eq List.length_range

/-- What the journal shows of the report of a failing entry. -/
def reportShown (i : Nat) : Kind × Option Subject × Option Nat := (.integrity, none, some i)

def Entry.shown (e : Entry) : Kind × Option Subject × Option Nat := (e.kind, e.subject, e.value)

/-- The second state is the first after the report of the failing entries among the first n positions. -/
structure Reported (n : Nat) (s u : State) : Prop where
  rest : u = { s with
    seq := { s.seq with plan := u.seq.plan }
    trap := u.trap, journal := u.journal, portA := u.portA, portB := u.portB }
  plan : ∀ i, u.seq.plan[i]? = (s.seq.plan[i]?).map fun e => if i < n then e.tested else e
  trap : u.trap = s.trap.afterEntries (s.unreportedTo n)
  kept : s.unreportedTo n = [] → u = s
  next : u.journal.next = s.journal.next + BitVec.ofNat 16 (s.unreportedTo n).length
  shown : n ≤ 32 → ((s.unreportedTo n).map reportShown) <:+ u.journal.entries.map Entry.shown
  port : ∀ p, s.unreportedTo n ≠ [] → u.port p = { s.port p with
    flags := (s.port p).flags ||| 0x1000, released := (s.port p).released ||| (0x1000 &&& (s.port p).urgent),
    unread := (u.port p).unread, gap := (u.port p).gap }

/-- An entry writes a port's cursor alone, and the report sets the INTEGRITY flag as well. -/
theorem reportOne_port (i : Nat) (e : PlanEntry) (s : State) (p : Port) : (reportOne i e s).port p = { s.port p with
    flags := (s.port p).flags ||| 0x1000
    released := (s.port p).released ||| (0x1000 &&& (s.port p).urgent)
    unread := ((reportOne i e s).port p).unread
    gap := ((reportOne i e s).port p).gap } := by
  have hm : Alert.integrity.mask = 0x1000 := by decide
  have hr (f : Bool) (r : PortRec) : r.entryMade f = { r with unread := (r.entryMade f).unread, gap := (r.entryMade f).gap } := by
    unfold PortRec.entryMade
    split <;> rfl
  have hf (f : Bool) (r : PortRec) : (r.entryMade f).setFlag .integrity = { r with
      flags := r.flags ||| 0x1000
      released := r.released ||| (0x1000 &&& r.urgent)
      unread := (r.entryMade f).unread
      gap := (r.entryMade f).gap } := by
    rw [← hm, hr]
    rfl
  cases p <;> exact hf ..

theorem Reported.zero (s : State) : Reported 0 s s where
  rest := rfl
  plan i := by simp
  trap := by rcases h : s.trap with ⟨_ | x, m⟩ <;> rfl
  kept _ := rfl
  next := by simp [State.unreportedTo]
  shown _ := List.nil_suffix
  port _ h := absurd rfl h

/-- The plan's entry at the next position stands as it stood. -/
theorem Reported.entry {n : Nat} (h : Reported n s u) : u.seq.plan[n]? = s.seq.plan[n]? := by
  rw [h.plan]
  simp

theorem Reported.old {n : Nat} {e : PlanEntry} (h : Reported n s u) (he : s.seq.plan[n]? = some e) (hn : e.news = false) :
    Reported (n + 1) s u := by
  have hu := unreportedTo_old he hn
  refine ⟨h.rest, fun i => ?_, by rw [hu]; exact h.trap, fun h' => h.kept (hu ▸ h'), by rw [hu]; exact h.next,
    fun h' => by rw [hu]; exact h.shown (by omega), fun p h' => h.port p (hu ▸ h')⟩
  rw [h.plan]
  by_cases hi : i = n
  · subst hi
    simp [he, PlanEntry.tested_of_old hn]
  · simp [show i < n + 1 ↔ i < n by omega]

/-- A new entry stands at the end of the ring, behind the latest entries that were there. -/
theorem push_suffix {l : List (Kind × Option Subject × Option Nat)} {j : Journal} (e : Entry)
    (h : l <:+ j.entries.map Entry.shown) (hl : l.length < Config.journalSize) :
    (l ++ [e.shown]) <:+ (j.push e).entries.map Entry.shown := by
  unfold Journal.push
  dsimp only
  rw [List.map_append, List.map_singleton]
  suffices key : l <:+ (if j.entries.length < Config.journalSize then j.entries else j.entries.drop 1).map Entry.shown by
    obtain ⟨m, hm⟩ := key
    exact ⟨m, by rw [← List.append_assoc, hm]⟩
  split
  · exact h
  · rename_i hf
    refine List.suffix_of_suffix_length_le h ?_ ?_
    · rw [List.map_drop]
      exact List.drop_suffix ..
    · simp
      omega

theorem Reported.new {n : Nat} {e : PlanEntry} (h : Reported n s u) (he : s.seq.plan[n]? = some e) (hn : e.news = true) :
    Reported (n + 1) s (reportOne n e u) := by
  have hu := unreportedTo_news he hn
  have hrest := h.rest
  refine ⟨?_, fun i => ?_, ?_, fun h' => ?_, ?_, fun h' => ?_, fun p _ => ?_⟩
  · rw [h.rest]
    rfl
  · show (u.seq.plan.set n { e with reported := true })[i]? = _
    rw [List.getElem?_set, h.plan]
    by_cases hi : n = i
    · subst hi
      have hl : n < u.seq.plan.length := (List.getElem?_eq_some_iff.mp (h.entry.trans he)).1
      simp [he, hl, PlanEntry.tested_of_news hn]
    · simp [hi, show i < n + 1 ↔ i < n by omega]
  · rw [hu, afterEntries_append, ← h.trap]
    rfl
  · simp [hu] at h'
  · rw [hu, List.length_append, List.length_singleton]
    show u.journal.next + 1 = _
    rw [h.next, BitVec.add_assoc]
    congr 1
    exact (BitVec.ofNat_add ..).symm
  · rw [hu, List.map_append]
    have hl : (s.unreportedTo n).length < Config.journalSize :=
      (unreportedTo_length_le s n).trans_lt (show n < 48 by omega)
    have hv : (u.reportEntered n).shown = reportShown n := by
      show (_, _, some (min n 65535)) = _
      rw [show min n 65535 = n by omega]
      rfl
    have := push_suffix (u.reportEntered n) (h.shown (by omega)) (by rwa [List.length_map])
    rwa [hv] at this
  · rw [reportOne_port]
    by_cases hz : s.unreportedTo n = []
    · rw [h.kept hz]
    · rw [h.port p hz]
      simp [BitVec.or_assoc]

/-- The pass over the first n positions reports the failing entries there. -/
theorem reportEntries_to (s : State) {n : Nat} (hn : n ≤ s.seq.plan.length) :
    Reported n s ((List.range n).foldl (fun s i => reportEntry i s) s) := by
  induction n with
  | zero => exact .zero s
  | succ n ih =>
    have h := ih (by omega)
    rw [List.range_succ, List.foldl_append, List.foldl_cons, List.foldl_nil]
    have he : s.seq.plan[n]? = some s.seq.plan[n] := List.getElem?_eq_getElem _
    cases hc : s.seq.plan[n].news with
    | true =>
      rw [reportEntry_news (h.entry.trans he) hc]
      exact h.new he hc
    | false =>
      rw [reportEntry_old (h.entry.trans he) hc]
      exact h.old he hc

/-- The first report of every failing entry, as the statements have it (R20). -/
theorem reportEntries_reported (s : State) : s.entriesReported (reportEntries s) := by
  have h := reportEntries_to s (Nat.le_refl _)
  have hp : (reportEntries s).seq.plan =
      s.seq.plan.map fun e => if e.code = .failing then { e with reported := true } else e := by
    refine List.ext_getElem? fun i => ?_
    rw [reportEntries, h.plan, List.getElem?_map]
    by_cases hi : i < s.seq.plan.length
    · simp [hi, PlanEntry.tested]
    · simp [List.getElem?_eq_none (Nat.le_of_not_lt hi)]
  refine ⟨?_, h.kept, h.next, fun hl => h.shown hl, h.port⟩
  rw [← hp, unreported_eq, ← h.trap]
  exact h.rest

/-- Part 0 shows no reported mark. -/
theorem reportEntries_planPart0 (s : State) (p : Port) : (reportEntries s).planPart0 p = s.planPart0 p := by
  have h := reportEntries_to s (Nat.le_refl _)
  have hq : (reportEntries s).seq = { s.seq with plan := (reportEntries s).seq.plan } := congrArg State.seq h.rest
  have hb (i : Nat) : planByte (reportEntries s).seq.plan[i]? = planByte s.seq.plan[i]? := by
    rw [reportEntries, h.plan]
    rcases s.seq.plan[i]? with _ | e
    · rfl
    · have ht : planByte (some e.tested) = planByte (some e) := by
        unfold PlanEntry.tested
        split <;> rfl
      by_cases hi : i < s.seq.plan.length
      · simpa [hi] using ht
      · simp [hi]
  have hl : (reportEntries s).seq.plan.length = s.seq.plan.length := by
    rw [(reportEntries_reported s).1]
    simp
  unfold State.planPart0
  simp only [hb, hl]
  rw [hq]

/-- Settles O11: part 0 after the report of the failing entries, part 1 and the lengths. -/
theorem readPlanReturnsItsPart : Obligations.ReadPlanReturnsItsPart := by
  intro s p tag part h
  refine ⟨fun hp => ⟨reportEntries s, reportEntries_reported s, ?_⟩, fun hp => ?_, fun hp => next_free h tag ?_,
    planPart0_length s p, planPart1_length s p, planPart0_foreign, planPart1_foreign⟩
  · subst hp
    rw [← reportEntries_planPart0]
    exact next_free h tag rfl
  · subst hp
    exact next_free h tag rfl
  · generalize part.toNat = n at hp
    match n with
    | 0 | 1 => omega
    | n + 2 => rfl

end Sys2Proof.Machine
end

section
/-! SUPPORT. GRANT on a started tray, RELEASE and CLEAR_FAULT, at a leased port (R25, R38, R41). -/

namespace Sys2Proof.Machine

variable {s : State} {p : Port}

/-! ### A record replaced within a claim -/

/-- A record replaced while nothing is owed is a claim that leaves the collections as they are, once nothing is owed
again. -/
theorem putTray_owed (h : s.agenda = Agenda.none) (t : TrayId) (r : Tray) :
    (s.putTray t r).setAgenda .none = s.claimed t r := by
  unfold State.claimed State.putTray State.setAgenda
  rw [← h]

/-- A record replaced with no fall of the commitment leaves nothing owed. -/
theorem putTray_of_le (h : s.agenda = Agenda.none) {t : TrayId} {r : Tray} (hr : (s.tray t).commitment ≤ r.commitment) :
    s.putTray t r = s.claimed t r := by
  rw [← putTray_owed h]
  refine (setAgenda_self _).symm.trans (congrArg (fun a => (s.putTray t r).setAgenda a) ?_)
  show Agenda.mk _ _ _ _ = _
  rw [h, decide_eq_false (by omega)]
  rfl

theorem claimed_tray (t n : TrayId) (r : Tray) (s : State) : (s.claimed t r).tray n = if n = t then r else s.tray n :=
  setRecord_tray t n r s

@[simp] theorem claimed_tray_self (t : TrayId) (r : Tray) (s : State) : (s.claimed t r).tray t = r := by
  rw [claimed_tray, if_pos rfl]

/-- The answer to a request whose event owes nothing but what a quiet state lets pass. -/
theorem answerAfter_quiet {v : State} (st : Status) (f : State → List Byte) (hs : v.startsWait) (ha : v.nothingToAdmit)
    (hw : v.warmRegain = false) : answerAfter st f v = (v.setAgenda .none, ⟨st, f (v.setAgenda .none)⟩) := by
  unfold answerAfter
  rw [finish_idle hs ha hw]

/-! ### GRANT on a QUEUED, INRUSH or RUN tray -/

/-- A tray that passes the checks of GRANT is not locked. -/
theorem grantCheck_unlocked {t : TrayId} {amount : Half} {rev park : Byte} (h : grantCheck t amount rev park s = none) :
    (s.tray t).locked = false := by
  unfold grantCheck at h
  by_contra hl
  rw [Bool.not_eq_false] at hl
  simp only [hl, if_true] at h
  split at h
  · simp at h
  · split at h <;> simp at h

theorem grantTaken_active {t : TrayId} {g : Nat} {park : Bool}
    (h : (s.tray t).state = .queued ∨ (s.tray t).state = .inrush ∨ (s.tray t).state = .run) :
    grantTaken t g park s = grantActive t g s := by
  unfold grantTaken
  rcases h with h | h | h <;> rw [h]

/-- The commitment of an unlocked started tray at a grant (R4). -/
theorem commitFor_started {r : Tray} (hl : r.locked = false) (h : r.state = .queued ∨ r.state = .inrush ∨ r.state = .run)
    (g : Nat) : r.commitFor r.state g = if r.state = .run then g else max r.cfg.inrush g := by
  rcases h with h | h | h <;> simp [h, Tray.commitFor, hl]

/-- GRANT at a leased port, on a started tray that passes the checks. -/
theorem grant_started {t : TrayId} {tag b : Byte} {amount : Half} {rev park : Byte} (h : s.leased p)
    (ht : trayOf b = some t) (hc : grantCheck t amount rev park s = none)
    (hst : (s.tray t).state = .queued ∨ (s.tray t).state = .inrush ∨ (s.tray t).state = .run) {v : State} {st : Status}
    (hv : grantActive t amount.toNat s = (v, st)) {w : State} {a : Answer}
    (ha : answerAfter st (State.grantPayload · t) v = (w, a)) :
    exec (.grant p tag b amount rev park) s = .next (respond p tag a w) := by
  refine next_leased h tag ?_
  simp only [ht, hc, grantTaken_active hst, hv]
  exact ha

/-- A resized grant, with its entry, when the pass that a fall calls for has no tray to take. -/
theorem grantResize_quiet {t : TrayId} {g : Nat} (ho : s.agenda = Agenda.none) (hq : s.quiet) :
    answerAfter .ok (State.grantPayload · t) (grantResize t g s) =
      let u := grantEntry t g .resized (s.claimed t { s.tray t with
        grant := g, commitment := (s.tray t).commitFor (s.tray t).state g, revision := (s.tray t).revision + 1
        deferred := false, adopted := false })
      (u, ⟨.ok, u.grantPayload t⟩) := by
  obtain ⟨_, hs, ha, hw⟩ := hq
  have key : (grantResize t g s).setAgenda .none = grantEntry t g .resized (s.claimed t { s.tray t with
        grant := g, commitment := (s.tray t).commitFor (s.tray t).state g, revision := (s.tray t).revision + 1
        deferred := false, adopted := false }) := by
    rw [← putTray_owed ho]
    unfold grantResize resizeGrant
    simp only [Bool.and_false]
    split <;> rfl
  have h1 : (grantResize t g s).startsWait := by
    unfold grantResize
    dsimp only
    split <;> exact hs
  have h2 : (grantResize t g s).nothingToAdmit := by
    unfold grantResize
    dsimp only
    split <;> exact ha
  have h3 : (grantResize t g s).warmRegain = false := by
    unfold grantResize
    dsimp only
    split <;> exact hw
  rw [answerAfter_quiet _ _ h1 h2 h3, key]

/-- Settles O19: the four outcomes of GRANT on a started tray, by the tests in their order. -/
theorem grantResizesAStartedTray : Obligations.GrantResizesAStartedTray := by
  intro s p tag b amount rev park t h hq ht hc hst
  have hl := grantCheck_unlocked hc
  have hread : checkRead t s = s := checkRead_passes (hq.1 t)
  have owed := h.1.1.2
  have hcom := commitFor_started hl hst
  dsimp only
  rw [← hcom]
  refine ⟨fun hg => ?_, fun hg hn => ?_, fun hg hn hh => ?_, fun hg => ?_⟩
  · have hv : grantActive t amount.toNat s = (clearAdopted t s, .ok) := if_pos hg
    rw [grant_started h ht hc hst hv (answerAfter_none (s := clearAdopted t s) _ _ owed)]
    have : (clearAdopted t s).grantPayload t = s.grantPayload t := by
      simp [State.grantPayload, clearAdopted, State.headroom]
    rw [this]
    rfl
  · have hv : grantActive t amount.toNat s = (s, .holdupState) := by
      unfold grantActive
      rw [if_neg (by omega), if_pos ⟨hg, by simpa using hn⟩]
    exact grant_started h ht hc hst hv (answerAfter_none _ _ owed)
  · have hv : grantActive t amount.toNat s = (s, .noHeadroom) := by
      unfold grantActive
      rw [if_neg (by omega), if_neg (by simp [hn])]
      simp only [hread, ite_self, hl, Bool.false_eq_true, if_false]
      rw [if_pos ⟨hg, by simp only [State.fits, Bool.not_eq_true', decide_eq_false_iff_not]; omega⟩]
    exact grant_started h ht hc hst hv (answerAfter_none _ _ owed)
  · have hv : grantActive t amount.toNat s = (grantResize t amount.toNat s, .ok) := by
      unfold grantActive
      rw [if_neg (by omega), if_neg (by rintro ⟨h1, h2⟩; rcases hg with h3 | ⟨_, h4, _⟩; omega; simp [h4] at h2)]
      simp only [hread, ite_self, hl, Bool.false_eq_true, if_false]
      rw [if_neg]
      rintro ⟨h1, h2⟩
      rcases hg with h3 | ⟨_, _, h4⟩
      · omega
      · simp [State.fits, h4] at h2
    exact grant_started h ht hc hst hv (grantResize_quiet owed hq)

/-! ### RELEASE and CLEAR_FAULT -/

theorem leaveCollection_startsWait (t : TrayId) (h : s.startsWait) : (leaveCollection t s).startsWait := by
  unfold leaveCollection
  split
  · unfold dequeue
    dsimp only
    split
    · rename_i hc
      rw [Bool.and_eq_true] at hc
      exact Or.inl (eq_of_beq hc.1)
    · exact h
  · exact h
  · exact h
  · exact h

theorem leaveCollection_nothingToAdmit (t : TrayId) (h : s.nothingToAdmit) : (leaveCollection t s).nothingToAdmit := by
  unfold leaveCollection
  split
  · unfold dequeue
    dsimp only
    split <;> exact h
  · rcases h with h | h | h
    · exact Or.inl h
    · exact Or.inr (Or.inl h)
    · exact Or.inr (Or.inr (by simp [h]))
  · exact h
  · exact h

theorem leaveCollection_warmRegain (t : TrayId) (s : State) : (leaveCollection t s).warmRegain = s.warmRegain := by
  unfold leaveCollection
  split
  · unfold dequeue
    dsimp only
    split <;> rfl
  · rfl
  · rfl
  · rfl

/-- A release as one claim: the tray leaves its collection, its record is IDLE's, and its RELEASE entry is made. -/
theorem releaseTaken_eq (t : TrayId) (s : State) : releaseTaken t s =
    admissionDue (journalise .release (some (.tray t)) none (some (.number (s.tray t).state.code))
      ((leaveCollection t (if (s.tray t).overCap = true then overCapCleared t s else s)).putTray t { s.tray t with
        state := .idle, grant := 0, commitment := 0, revision := (s.tray t).revision + 1, faultCause := none
        adopted := false, deferred := false, overCap := false })) := by
  have hv : (leaveCollection t (if (s.tray t).overCap = true then overCapCleared t s else s)).tray t = s.tray t := by
    rw [tray_congr (leaveCollection_trays t _)]
    split <;> rfl
  unfold releaseTaken move moveBare
  simp only [TrayState.keepsMarks, Bool.not_false, Bool.and_true]
  rw [hv]
  simp only [Tray.enter, Tray.commitFor, TrayState.keepsMarks, show (TrayState.idle == TrayState.run) = false from rfl,
    Bool.and_false]
  rfl

theorem releaseTaken_quiet (t : TrayId) (hq : s.quiet) :
    answerAfter .ok (State.trayPayload · t) (releaseTaken t s) =
      let v := leaveCollection t (if (s.tray t).overCap = true then overCapCleared t s else s)
      let u := journalise .release (some (.tray t)) none (some (.number (s.tray t).state.code))
        { v.claimed t { s.tray t with
            state := .idle, grant := 0, commitment := 0, revision := (s.tray t).revision + 1, faultCause := none
            adopted := false, deferred := false, overCap := false } with agenda := .none }
      (u, ⟨.ok, u.trayPayload t⟩) := by
  obtain ⟨_, hs, ha, hw⟩ := hq
  rw [releaseTaken_eq]
  generalize hm : (if (s.tray t).overCap = true then overCapCleared t s else s) = m
  have hs' : m.startsWait := by
    rw [← hm]
    split <;> exact hs
  have ha' : m.nothingToAdmit := by
    rw [← hm]
    split <;> exact ha
  have hw' : m.warmRegain = false := by
    rw [← hm]
    split <;> exact hw
  rw [answerAfter_quiet]
  · rfl
  · exact leaveCollection_startsWait t hs'
  · exact leaveCollection_nothingToAdmit t ha'
  · exact (leaveCollection_warmRegain t m).trans hw'

theorem release_settled (h : s.leased p) (tag b rev : Byte) :
    (31 < b.toNat → exec (.release p tag b rev) s = .next (respond p tag ⟨.range, []⟩ s)) ∧
    ∀ t, trayOf b = some t →
      let r := s.tray t
      let refused (st : Status) : Prop := exec (.release p tag b rev) s = .next (respond p tag ⟨st, []⟩ s)
      if rev ≠ r.revision then refused .stale
      else if r.locked = true then refused .locked
      else if r.state = .idle ∨ r.state = .isolated ∨ r.state = .faulted then refused .state
      else s.quiet →
        let v := leaveCollection t (if r.overCap = true then overCapCleared t s else s)
        let u := journalise .release (some (.tray t)) none (some (.number r.state.code))
          { v.claimed t { r with
              state := .idle, grant := 0, commitment := 0, revision := r.revision + 1, faultCause := none
              adopted := false, deferred := false, overCap := false } with agenda := .none }
        exec (.release p tag b rev) s = .next (respond p tag ⟨.ok, u.trayPayload t⟩ u) := by
  refine ⟨fun hb => next_leased h tag (by simp only [trayOf_none hb]; rfl), fun t ht => ?_⟩
  have refused {st : Status} (hc : releaseCheck t rev s = some st) :
      exec (.release p tag b rev) s = .next (respond p tag ⟨st, []⟩ s) :=
    next_leased h tag (by simp only [ht, hc]; rfl)
  dsimp only
  split
  · rename_i hr
    exact refused (if_pos hr)
  · rename_i hr
    split
    · rename_i hl
      exact refused ((if_neg hr).trans (if_pos hl))
    · rename_i hl
      split
      · rename_i hst
        refine refused ((if_neg hr).trans ((if_neg hl).trans ?_))
        rcases hst with e | e | e <;> rw [e]
      · rename_i hst
        intro hq
        have hc : releaseCheck t rev s = none := by
          refine (if_neg hr).trans ((if_neg hl).trans ?_)
          simp only [not_or] at hst
          cases e : (s.tray t).state <;> simp [e] at hst ⊢
        exact next_leased h tag (by simp only [ht, hc]; exact releaseTaken_quiet t hq)

theorem clearFault_settled (h : s.leased p) (tag b rev : Byte) :
    (31 < b.toNat → exec (.clearFault p tag b rev) s = .next (respond p tag ⟨.range, []⟩ s)) ∧
    ∀ t, trayOf b = some t →
      let r := s.tray t
      let refused (st : Status) : Prop := exec (.clearFault p tag b rev) s = .next (respond p tag ⟨st, []⟩ s)
      if rev ≠ r.revision then refused .stale
      else if r.locked = true then refused .locked
      else if r.state ≠ .faulted then refused .state
      else r.code = .matching → r.lawful →
        let u := s.claimed t { r with
          state := if s.zoneInLeak r.cfg then .isolated else .idle
          faultCause := none, triesLeft := r.cfg.tries, revision := r.revision + 1 }
        exec (.clearFault p tag b rev) s = .next (respond p tag ⟨.ok, u.trayPayload t⟩ u) := by
  refine ⟨fun hb => next_leased h tag (by simp only [trayOf_none hb]; rfl), fun t ht => ?_⟩
  have refused {st : Status} (hc : clearFaultCheck t rev s = some st) :
      exec (.clearFault p tag b rev) s = .next (respond p tag ⟨st, []⟩ s) :=
    next_leased h tag (by simp only [ht, hc]; rfl)
  dsimp only
  split
  · rename_i hr
    exact refused (if_pos hr)
  · rename_i hr
    split
    · rename_i hl
      exact refused ((if_neg hr).trans (if_pos hl))
    · rename_i hl
      split
      · rename_i hst
        exact refused ((if_neg hr).trans ((if_neg hl).trans (if_pos hst)))
      · rename_i hst
        intro hcode _
        have hc : clearFaultCheck t rev s = none := (if_neg hr).trans ((if_neg hl).trans (if_neg hst))
        have hread : checkRead t s = s := checkRead_passes (by simp [Tray.failsCheck, hcode])
        have hput : clearFaultTaken t s = s.claimed t _ := putTray_of_le h.1.1.2 (Nat.le_refl _)
        refine next_leased h tag ?_
        simp only [ht, hc, hread, hl, Bool.false_eq_true, if_false, hput]
        exact answerAfter_none _ _ h.1.1.2

/-- Settles O21: RELEASE and CLEAR_FAULT, each by its checks in order. -/
theorem releaseAndClearFault : Obligations.ReleaseAndClearFault :=
  ⟨fun _ _ tag b rev h => release_settled h tag b rev, fun _ _ tag b rev h => clearFault_settled h tag b rev⟩

end Sys2Proof.Machine
end

section
/-! SUPPORT. SET_TRAY: its checks, the record that it leaves, and the passes that then find nothing to do (R23, R24). -/

namespace Sys2Proof.Machine

variable {s v : State} {p : Port} {t : TrayId} {c : TrayConfig}

/-! ### The end of an event that reports no start opportunity -/

theorem admissionIfAllowed_owed (h : s.nothingToAdmit) :
    ∃ b, admissionIfAllowed s = s.setAgenda { s.agenda with admission := b } := by
  unfold admissionIfAllowed
  rcases h with h | h | h
  · exact ⟨_, if_neg (by simp [h])⟩
  · exact ⟨_, if_neg (by simp [h])⟩
  · split
    · exact ⟨false, by simp [admissionPass, h, admissionWalk]⟩
    · exact ⟨_, rfl⟩

theorem endClaim_opportunity (h : s.nothingToAdmit) (hw : s.warmRegain = false) :
    (endClaim s).agenda.opportunity = s.agenda.opportunity := by
  have hr (a : Agenda) : regainTest (s.setAgenda a) = s.setAgenda a := regainTest_idle hw
  obtain ⟨b, hb⟩ := admissionIfAllowed_owed
    (nothingToAdmit_setAgenda h { s.agenda with admission := false, shortfall := false })
  unfold endClaim
  dsimp only
  rw [hb]
  split
  · split
    · rw [setAgenda_setAgenda, setAgenda_setAgenda, hr]
      rfl
    · rfl
  · split
    · rw [setAgenda_setAgenda, hr]
      rfl
    · rfl

/-- The end of an event that reports no start opportunity, with no tray to take in, only clears what is owed. -/
theorem finish_calm (h : s.nothingToAdmit) (hw : s.warmRegain = false) (ho : s.agenda.opportunity = false) :
    finish s = s.setAgenda .none := by
  obtain ⟨a, ha⟩ := endClaim_idle h hw
  have hn : (endClaim s).agenda.opportunity = false := (endClaim_opportunity h hw).trans ho
  have : finishRounds 33 s = endClaim s := by
    unfold finishRounds
    simp only [hn, Bool.false_eq_true, if_false]
  rw [finish, this, ha, setAgenda_setAgenda]

/-! ### The record -/

/-- The record of an accepted SET_TRAY on an unlocked tray, field by field (R23). -/
theorem rewrite_unlocked {r : Tray} (inLeak : Bool) (hc : r.code = .matching) (hl : r.locked = false) (hr : r.lawful) :
    r.rewrite c inLeak = { r with
      cfg := c, frozen := 0
      commitment := if r.state = .queued ∨ r.state = .inrush then max c.inrush r.grant else r.commitment
      revision := r.revision + 1
      state := if r.state = .idle ∧ inLeak = true then .isolated else r.state
      triesLeft := if r.state = .inrush then min r.triesLeft c.tries else c.tries
      deferred := r.deferred && c.selfRequest, overCap := r.overCap && c.selfRequest } := by
  obtain ⟨cfg, code, st, g, k, rev, tl, fc, ad, de, oc, lo, fr⟩ := r
  have hk := hr.1
  dsimp only at hc hl hk
  subst hc hl
  cases st <;> cases inLeak <;>
    simp_all [Tray.rewrite, rewriteState, Tray.rewriteTries, Tray.commitFor]

theorem held_congr {u : State} (hl : u.leak = s.leak) (hk : u.link = s.link) {n : TrayId}
    (ht : (u.tray n).locked = (s.tray n).locked) (hz : (u.tray n).cfg.zone = (s.tray n).cfg.zone) : u.held n = s.held n := by
  unfold State.held State.heldByZone State.heldByStation State.zone State.station Tray.inZone
  rw [hl, hk, ht, hz]

/-- A re-sort whose members all pass their checks sorts the Park List alone. -/
theorem resort_passes (h : s.codesPass) : resort s = sortPark s := by
  unfold resort
  rw [testMembers_passes h, testMembers_passes h]

/-- The state in which SET_TRAY replaces the record: the OVER_CAP entry of a mark that clears has been made. -/
def setTrayBegun (t : TrayId) (c : TrayConfig) (s : State) : State :=
  if (s.tray t).overCap = true ∧ c.selfRequest = false then
    journalise .overCap (some (.tray t)) (s.lastDemand t) (some .cleared) s
  else s

theorem setTrayRecord_eq (t : TrayId) (c : TrayConfig) (s : State) : setTrayRecord t c s =
    (setTrayBegun t c s).putTray t ((s.tray t).rewrite c (s.zoneInLeak c)) := by
  unfold setTrayRecord setTrayBegun
  by_cases h : (s.tray t).overCap = true ∧ c.selfRequest = false
  · simp only [h, Bool.not_false, Bool.and_self, if_true, true_and]
    rfl
  · rw [if_neg h, if_neg (by simpa using h)]

theorem setTrayBegun_cases (t : TrayId) (c : TrayConfig) (s : State) : setTrayBegun t c s = s ∨
    setTrayBegun t c s = journalise .overCap (some (.tray t)) (s.lastDemand t) (some .cleared) s := by
  unfold setTrayBegun
  split
  · exact Or.inr rfl
  · exact Or.inl rfl

/-- What the OVER_CAP entry leaves as it was. -/
theorem setTrayBegun_same (t : TrayId) (c : TrayConfig) (s : State) : (setTrayBegun t c s).trays = s.trays ∧
    (setTrayBegun t c s).park = s.park ∧ (setTrayBegun t c s).agenda = s.agenda ∧ (setTrayBegun t c s).acct = s.acct ∧
    (setTrayBegun t c s).seq = s.seq ∧ (setTrayBegun t c s).hup = s.hup ∧ (setTrayBegun t c s).leak = s.leak ∧
    (setTrayBegun t c s).link = s.link ∧ (setTrayBegun t c s).queue = s.queue := by
  rcases setTrayBegun_cases t c s with e | e <;> rw [e]
  · exact ⟨rfl, rfl, rfl, rfl, rfl, rfl, rfl, rfl, rfl⟩
  · exact ⟨rfl, rfl, rfl, rfl, rfl, rfl, rfl, rfl, rfl⟩

/-! ### The order of the Park List -/

theorem parkBefore_total (s : State) (a b : TrayId) : s.parkBefore a b = true ∨ s.parkBefore b a = true := by
  simp only [State.parkBefore, Bool.or_eq_true, Bool.and_eq_true, decide_eq_true_eq, beq_iff_eq]
  omega

theorem parkBefore_trans {s : State} {a b d : TrayId} (h : s.parkBefore a b = true) (h' : s.parkBefore b d = true) :
    s.parkBefore a d = true := by
  simp only [State.parkBefore, Bool.or_eq_true, Bool.and_eq_true, decide_eq_true_eq, beq_iff_eq] at h h' ⊢
  omega

/-- Sorting by a total and transitive order leaves each member before the later ones. -/
theorem sortBy_pairwise {r : TrayId → TrayId → Bool} (total : ∀ a b, r a b = true ∨ r b a = true)
    (trans : ∀ {a b d}, r a b = true → r b d = true → r a d = true) (l : List TrayId) :
    (sortBy r l).Pairwise fun a b => r a b = true := by
  have insert (x : TrayId) (l : List TrayId) (h : l.Pairwise fun a b => r a b = true) :
      (insertBy r x l).Pairwise fun a b => r a b = true := by
    induction l with
    | nil => exact List.pairwise_singleton ..
    | cons y l ih =>
      rw [List.pairwise_cons] at h
      unfold insertBy
      split
      · rename_i hxy
        refine List.pairwise_cons.mpr ⟨fun z hz => ?_, List.pairwise_cons.mpr h⟩
        rcases List.mem_cons.mp hz with e | hz
        · exact e ▸ hxy
        · exact trans hxy (h.1 z hz)
      · rename_i hxy
        refine List.pairwise_cons.mpr ⟨fun z hz => ?_, ih h.2⟩
        rcases List.mem_cons.mp ((insertBy_perm ..).mem_iff.mp hz) with e | hz
        · exact e ▸ (total x y).resolve_left hxy
        · exact h.1 z hz
  induction l with
  | nil => exact List.Pairwise.nil
  | cons x l ih => exact insert x _ ih

theorem sortPark_pairwise (s : State) : (sortPark s).park.Pairwise fun a b => s.parkBefore a b = true :=
  sortBy_pairwise (parkBefore_total s) parkBefore_trans _

/-! ### An accepted SET_TRAY -/

/-- The rewrite's hold on its tray is the hold that the tray had, so nothing is lifted (R11). -/
theorem setTray_lifts_none {u : State} {r : Tray} (hl : (s.tray t).locked = false) (hr : u.tray t = r)
    (hlock : r.locked = false) (hleak : u.leak = s.leak) (hlink : u.link = s.link)
    (hz : r.cfg.zone = (s.tray t).cfg.zone ∨ r.state ≠ .queued ∧ r.state ≠ .parked) :
    liftedFrom (s.held t) t u = false := by
  subst hr
  unfold liftedFrom
  rcases hz with hz | ⟨hq, hp⟩
  · rw [held_congr hleak hlink (hlock.trans hl.symm) hz]
    simp
  · simp [hq, hp]

/-- SET_TRAY re-sorts the collection of its unlocked tray when the tray's class changes (R16). -/
def resorts (r : Tray) (c : TrayConfig) : Prop :=
  c.cls ≠ r.cfg.cls ∧ (r.state = .parked ∨ r.state = .inrush ∨ r.state = .run)

theorem resorts_iff {r : Tray} (hl : r.locked = false) :
    ((r.locked || c.cls != r.cfg.cls) && (r.state == .parked || r.state.enabled)) = true ↔ resorts r c := by
  have he : r.state.enabled = true ↔ r.state = .inrush ∨ r.state = .run := by cases r.state <;> simp [TrayState.enabled]
  simp [hl, he, resorts]

/-- The passes of an accepted SET_TRAY on an unlocked tray: the re-sort, and the pass that a fall calls for. -/
theorem setTrayPasses_unlocked (hlock : (s.tray t).locked = false)
    (hz : c.zone = (s.tray t).cfg.zone ∨ (s.tray t).state = .idle ∨ (s.tray t).state = .faulted)
    (hv : v.tray t = (s.tray t).rewrite c (s.zoneInLeak c)) (hleak : v.leak = s.leak) (hlink : v.link = s.link)
    (hpass : resorts (s.tray t) c → v.codesPass) :
    ∃ park : List TrayId, park.Perm v.park ∧
      (resorts (s.tray t) c → park.Pairwise fun a b => v.parkBefore a b = true) ∧ (¬resorts (s.tray t) c → park = v.park) ∧
      setTrayPasses t (s.tray t) c (s.held t) v =
        if ((s.tray t).rewrite c false).commitment < (s.tray t).commitment then admissionDue { v with park := park }
        else { v with park := park } := by
  have lifts (u : State) (hu : u.tray t = v.tray t) (hul : u.leak = v.leak) (huk : u.link = v.link) :
      liftedFrom (s.held t) t u = false := by
    refine setTray_lifts_none hlock (hu.trans hv) rfl (hul.trans hleak) (huk.trans hlink) ?_
    rcases hz with e | e | e
    · exact Or.inl e
    · refine Or.inr ?_
      simp only [Tray.rewrite, rewriteState, e]
      cases s.zoneInLeak c <;> simp
    · exact Or.inr (by simp [Tray.rewrite, rewriteState, e])
  unfold setTrayPasses
  simp only [hlock, Bool.false_and, Bool.false_eq_true, if_false]
  by_cases hr : resorts (s.tray t) c
  · have hc := (resorts_iff hlock).mpr hr
    rw [hlock] at hc
    refine ⟨sortBy v.parkBefore v.park, sortBy_perm .., fun _ => sortPark_pairwise v, fun h => absurd hr h, ?_⟩
    rw [if_pos hc, resort_passes (hpass hr)]
    split
    · rw [lifts (admissionDue (sortPark v)) rfl rfl rfl]
      rfl
    · rw [lifts (sortPark v) rfl rfl rfl]
      rfl
  · have hc := mt (resorts_iff hlock).mp hr
    rw [hlock] at hc
    refine ⟨v.park, .refl _, fun h => absurd h hr, fun _ => rfl, ?_⟩
    rw [if_neg hc]
    split
    · rw [lifts (admissionDue _) rfl rfl rfl]
      rfl
    · rw [lifts _ rfl rfl rfl]
      rfl

/-- The effect of an accepted SET_TRAY on an unlocked tray, once the event has ended: the record, and the Park List re-sorted when
the class of a member of a sorted collection changes. -/
theorem setTrayTaken_unlocked (ho : s.agenda = Agenda.none) (hlock : (s.tray t).locked = false)
    (hz : c.zone = (s.tray t).cfg.zone ∨ (s.tray t).state = .idle ∨ (s.tray t).state = .faulted)
    (hpass : resorts (s.tray t) c → s.codesPass)
    (hfall : ((s.tray t).rewrite c false).commitment < (s.tray t).commitment → s.nothingToAdmit ∧ s.warmRegain = false) :
    ∃ park : List TrayId,
      let u := { (setTrayBegun t c s).claimed t ((s.tray t).rewrite c (s.zoneInLeak c)) with park := park }
      finish (setTrayTaken t c s) = u ∧ park.Perm s.park ∧
        (resorts (s.tray t) c → park.Pairwise fun a b => u.parkBefore a b = true) ∧
        (¬resorts (s.tray t) c → park = s.park) := by
  obtain ⟨htrays, hpark, hagenda, hacct, hseq, hhup, hleak, hlink, _⟩ := setTrayBegun_same t c s
  have ho' := hagenda.trans ho
  have hbt (n : TrayId) : (setTrayBegun t c s).tray n = s.tray n := tray_congr htrays n
  have hcodes (h : s.codesPass) (n : TrayId) :
      (((setTrayBegun t c s).putTray t ((s.tray t).rewrite c (s.zoneInLeak c))).tray n).failsCheck = false := by
    rw [putTray_tray]
    split
    · rfl
    · rw [hbt]
      exact h n
  obtain ⟨park, hperm, hsorted, hkept, hpasses⟩ := setTrayPasses_unlocked
    (v := (setTrayBegun t c s).putTray t ((s.tray t).rewrite c (s.zoneInLeak c))) hlock hz (putTray_tray_self ..)
    hleak hlink fun h => hcodes (hpass h)
  rw [← setTrayRecord_eq, ← setTrayTaken_eq, setTrayRecord_eq] at hpasses
  refine ⟨park, ?_, hpark ▸ hperm, hsorted, fun h => (hkept h).trans hpark⟩
  rw [hpasses]
  split
  · rename_i hlt
    obtain ⟨hadmit, hwarm⟩ := hfall hlt
    rw [finish_calm]
    · rw [← putTray_owed ho']
      rfl
    · rcases hadmit with h | h | h
      · refine Or.inl ?_
        show ((setTrayBegun t c s).hup.state == _) = _
        rw [hhup]
        exact h
      · refine Or.inr (Or.inl ?_)
        show ((setTrayBegun t c s).acct.mode == _) = _
        rw [hacct]
        exact h
      · refine Or.inr (Or.inr ?_)
        have : park.Perm [] := h ▸ hpark ▸ hperm
        exact this.eq_nil
    · show ((setTrayBegun t c s).hup.state == _ && !(setTrayBegun t c s).hup.cold) = _
      rw [hhup]
      exact hwarm
    · show (setTrayBegun t c s).agenda.opportunity = false
      rw [ho']
      rfl
  · rename_i hle
    have hle : ((setTrayBegun t c s).tray t).commitment ≤ ((s.tray t).rewrite c (s.zoneInLeak c)).commitment := by
      rw [hbt]
      exact Nat.le_of_not_lt hle
    rw [putTray_of_le ho' hle]
    exact finish_none ho'

/-! ### SET_TRAY at a leased port -/

/-- SET_TRAY after the read of its checks: refused, or taken. -/
def setTrayJudged (t : TrayId) (c : TrayConfig) (s : State) : State × Answer :=
  match if (s.tray t).locked then none else setTrayCheck t c s with
  | some st => refuse st s
  | none => answerAfter .ok (State.trayPayload · t) (setTrayTaken t c s)

/-- SET_TRAY with a tray, a configuration part and the tray's revision, when the read finds the part good. -/
theorem setTray_checked {b rev tag : Byte} {f : TrayFields} (h : s.leased p) (ht : trayOf b = some t)
    (hf : TrayFields.config f = some c) (hrev : rev = (s.tray t).revision) (hread : (s.tray t).failsCheck = false) :
    exec (.setTray p tag b rev f) s = .next (respond p tag (setTrayJudged t c s).2 (setTrayJudged t c s).1) := by
  refine congrArg Host.Outcome.next ?_
  unfold setTrayRequest
  rw [takeRequest_leased h]
  simp only [ht, hf, hrev, ne_eq, not_true_eq_false, if_false, checkRead_passes hread]
  rfl

/-- SET_TRAY that passes its checks. -/
theorem setTray_accepted {b rev tag : Byte} {f : TrayFields} (h : s.leased p) (ht : trayOf b = some t)
    (hf : TrayFields.config f = some c) (hrev : rev = (s.tray t).revision) (hread : (s.tray t).failsCheck = false)
    (hc : (s.tray t).locked = true ∨ setTrayCheck t c s = none) {u : State} (hu : finish (setTrayTaken t c s) = u) :
    exec (.setTray p tag b rev f) s = .next (respond p tag ⟨.ok, u.trayPayload t⟩ u) := by
  have hn : (if (s.tray t).locked then none else setTrayCheck t c s) = none := by
    rcases hc with e | e
    · rw [if_pos e]
    · rw [e, ite_self]
  have hj : setTrayJudged t c s = (u, ⟨.ok, u.trayPayload t⟩) := by
    unfold setTrayJudged answerAfter
    rw [hn, hu]
  rw [setTray_checked h ht hf hrev hread, hj]

/-- SET_TRAY refused on an unlocked tray. -/
theorem setTray_refused {b rev tag : Byte} {f : TrayFields} {st : Status} (h : s.leased p) (ht : trayOf b = some t)
    (hf : TrayFields.config f = some c) (hrev : rev = (s.tray t).revision) (hread : (s.tray t).failsCheck = false)
    (hlock : (s.tray t).locked = false) (hc : setTrayCheck t c s = some st) :
    exec (.setTray p tag b rev f) s = .next (respond p tag ⟨st, []⟩ s) := by
  have hj : setTrayJudged t c s = refuse st s := by
    unfold setTrayJudged
    rw [hlock, if_neg Bool.false_ne_true, hc]
  rw [setTray_checked h ht hf hrev hread, hj]
  rfl

/-- The rise of the commitment of an unlocked tray that waits or starts. -/
theorem setTray_rise {r : Tray} (hl : r.locked = false) (hw : r.state = .queued ∨ r.state = .inrush) :
    Tray.commitFor { r with cfg := c } r.state r.grant = max c.inrush r.grant := by
  rcases hw with e | e <;> simp [e, Tray.commitFor, hl]

/-- Settles O22: the two tests of the parameters, the revision, and the two checks on an unlocked tray. -/
theorem setTrayChecksInOrder : Obligations.SetTrayChecksInOrder := by
  intro s p tag b rev f h
  refine ⟨fun hr => next_leased h tag ?_, fun t c ht hf => ?_⟩
  · rcases hr with hb | hf
    · simp only [trayOf_none hb]
      rfl
    · rw [hf]
      cases trayOf b <;> rfl
  · dsimp only
    split
    · rename_i hrev
      refine next_leased h tag ?_
      simp only [ht, hf]
      exact if_pos hrev
    · rename_i hrev
      rw [ne_eq, not_not] at hrev
      intro hread hlock
      have refused {st : Status} := setTray_refused (st := st) (tag := tag) h ht hf hrev hread hlock
      split
      · rename_i hz
        exact refused (if_pos hz)
      · rename_i hz
        intro hw hrise
        rw [← setTray_rise hlock hw] at hrise ⊢
        refine ⟨fun hm => refused ?_, fun hm hh => refused ?_⟩
        · exact (if_neg hz).trans ((if_pos ⟨hw, hrise⟩).trans (if_pos hm))
        · refine (if_neg hz).trans ((if_pos ⟨hw, hrise⟩).trans ((if_neg (by simp [hm])).trans (if_neg ?_)))
          simp only [State.fits, decide_eq_true_eq]
          omega

/-- SET_TRAY's checks pass on a tray whose zone may change, or does not, and whose rise fits (R23). -/
theorem setTrayCheck_passes (hlock : (s.tray t).locked = false)
    (hz : c.zone = (s.tray t).cfg.zone ∨ (s.tray t).state = .idle ∨ (s.tray t).state = .faulted)
    (hrise : (s.tray t).state = .queued ∨ (s.tray t).state = .inrush →
      (s.tray t).commitment < max c.inrush (s.tray t).grant →
      s.acct.mode = .settled ∧ max c.inrush (s.tray t).grant - (s.tray t).commitment ≤ s.headroom) :
    setTrayCheck t c s = none := by
  refine (if_neg ?_).trans ?_
  · rintro ⟨h1, h2, h3⟩
    rcases hz with e | e | e
    · exact h1 e
    · exact h2 e
    · exact h3 e
  · by_cases hw : (s.tray t).state = .queued ∨ (s.tray t).state = .inrush
    · rw [setTray_rise hlock hw]
      by_cases hr : 0 < max c.inrush (s.tray t).grant - (s.tray t).commitment
      · obtain ⟨hm, hh⟩ := hrise hw (by omega)
        rw [if_pos ⟨hw, hr⟩, hm, if_neg (by simp), if_pos (by simpa only [State.fits, decide_eq_true_eq] using hh)]
      · rw [if_neg (fun h => hr h.2)]
    · exact if_neg fun h => hw h.1

theorem setTray_idle (h : s.leased p) {tag b rev : Byte} {f : TrayFields} (ht : trayOf b = some t)
    (hf : TrayFields.config f = some c) (hrev : rev = (s.tray t).revision) (hcode : (s.tray t).code = .matching)
    (hlock : (s.tray t).locked = false) (hidle : (s.tray t).state = .idle) (hlaw : (s.tray t).lawful) :
    let r := s.tray t
    let u := s.claimed t { r with
      cfg := c, frozen := 0, state := if s.zoneInLeak c then .isolated else .idle, commitment := 0
      revision := r.revision + 1, triesLeft := c.tries }
    exec (.setTray p tag b rev f) s = .next (respond p tag ⟨.ok, u.trayPayload t⟩ u) := by
  have hread : (s.tray t).failsCheck = false := by simp [Tray.failsCheck, hcode]
  have noSort : ¬resorts (s.tray t) c := by simp [resorts, hidle]
  have hzero : (s.tray t).commitment = 0 := by rw [hlaw.1, hidle]; rfl
  have hkeep : ¬((s.tray t).rewrite c false).commitment < (s.tray t).commitment := by omega
  obtain ⟨hdef, hcap⟩ := hlaw.2.2.1 (by rw [hidle]; rfl)
  have hbegun : setTrayBegun t c s = s := by simp [setTrayBegun, hcap]
  have hcheck : setTrayCheck t c s = none :=
    setTrayCheck_passes hlock (Or.inr (Or.inl hidle)) fun hw => by simp [hidle] at hw
  obtain ⟨park, hu, _, _, hkept⟩ := setTrayTaken_unlocked (c := c) h.1.1.2 hlock (Or.inr (Or.inl hidle))
    (fun hr => absurd hr noSort) fun hlt => absurd hlt hkeep
  rw [hkept noSort, hbegun, rewrite_unlocked _ hcode hlock hlaw] at hu
  simp only [hidle, hzero, hdef, hcap, Bool.false_and, true_and, reduceCtorEq, or_self, if_false] at hu
  refine setTray_accepted h ht hf hrev hread (Or.inr hcheck) (hu.trans ?_)
  simp only [hdef, hcap]
  rfl

/-- Settles O23: the record of an unlocked tray, IDLE or in any state, and the passes that find nothing to do. -/
theorem setTrayRewritesAnUnlockedTray : Obligations.SetTrayRewritesAnUnlockedTray := by
  refine ⟨fun s p tag b rev f t c h ht hf hrev hcode hlock hidle hlaw => setTray_idle h ht hf hrev hcode hlock hidle hlaw,
    fun s p tag b rev f t c h hcodes ht hf hrev hcode hlock hlaw => ?_⟩
  dsimp only
  intro hz hrise hfall
  have hread : (s.tray t).failsCheck = false := by simp [Tray.failsCheck, hcode]
  have hcom (b : Bool) : ((s.tray t).rewrite c b).commitment = if (s.tray t).state = .queued ∨ (s.tray t).state = .inrush
      then max c.inrush (s.tray t).grant else (s.tray t).commitment := by rw [rewrite_unlocked b hcode hlock hlaw]
  have hcheck : setTrayCheck t c s = none := setTrayCheck_passes hlock hz fun hw => by
    rw [if_pos hw] at hrise
    exact hrise
  obtain ⟨park, hu, hperm, hsorted, hkept⟩ := setTrayTaken_unlocked (c := c) h.1.1.2 hlock hz (fun _ => hcodes)
    (by rw [hcom]; exact hfall)
  rw [rewrite_unlocked _ hcode hlock hlaw] at hu hsorted
  refine ⟨park, setTray_accepted h ht hf hrev hread (Or.inr hcheck) hu, hperm, ?_⟩
  split
  · rename_i hr
    exact hsorted hr
  · rename_i hr
    exact hkept hr

/-! ### SET_TRAY on a locked tray -/

/-- SET_TRAY's passes on a locked tray that is in no sorted collection but RUN's, with no tray failing its check: the Park List
may be re-sorted, and nothing else changes. -/
theorem setTrayPasses_locked {r : Tray} {wasHeld : Bool} (hl : r.locked = true) (hq : r.state ≠ .queued)
    (hi : r.state ≠ .inrush) (hp : r.state ≠ .parked) (hcodes : v.codesPass)
    (hle : r.commitment ≤ (r.rewrite c false).commitment)
    (hst : (v.tray t).state ≠ .queued ∧ (v.tray t).state ≠ .parked) :
    setTrayPasses t r c wasHeld v = v ∨ setTrayPasses t r c wasHeld v = sortPark v := by
  have noLift (u : State) (hu : u.tray t = v.tray t) : liftedFrom wasHeld t u = false := by
    simp [liftedFrom, hu, hst]
  unfold setTrayPasses
  simp only [hl, Bool.true_or, Bool.true_and, beq_false_of_ne hq, beq_false_of_ne hi, beq_false_of_ne hp, Bool.false_or,
    Bool.or_self, Bool.false_eq_true, if_false, if_neg (Nat.not_lt.mpr hle)]
  split
  · rw [resort_passes hcodes, noLift (sortPark v) rfl]
    exact Or.inr rfl
  · rw [noLift v rfl]
    exact Or.inl rfl

/-- Out of the Start Queue and the slots a rewrite keeps the commitment (R4, R24). -/
theorem rewrite_commitment {r : Tray} (inLeak : Bool) (hq : r.state ≠ .queued) (hi : r.state ≠ .inrush) (hr : r.lawful) :
    (r.rewrite c inLeak).commitment = r.commitment := by
  rw [hr.1]
  cases e : r.state <;> simp [e, Tray.rewrite, Tray.commitFor] at hq hi ⊢

/-- The state of a locked tray after a rewrite, out of the sorted collections but RUN's (R24). -/
theorem rewriteState_locked {r : Tray} {inLeak : Bool} (hl : r.locked = true) (hq : r.state ≠ .queued)
    (hi : r.state ≠ .inrush) (hp : r.state ≠ .parked) : rewriteState r inLeak =
      if r.state = .faulted ∨ r.state = .run then r.state else if inLeak then .isolated else .idle := by
  cases e : r.state <;> cases inLeak <;> simp_all [rewriteState]

/-- The effect of SET_TRAY on a locked tray out of the sorted collections but RUN's, once the event has ended. -/
theorem setTrayTaken_locked (ho : s.agenda = Agenda.none) (hcodes : s.codesPass) (hlock : (s.tray t).locked = true)
    (hq : (s.tray t).state ≠ .queued) (hi : (s.tray t).state ≠ .inrush) (hp : (s.tray t).state ≠ .parked)
    (hlaw : (s.tray t).lawful) :
    let u := finish (setTrayTaken t c s)
    (∀ n, u.tray n = if n = t then (s.tray t).rewrite c (s.zoneInLeak c) else s.tray n) ∧ u.queue = s.queue ∧
      u.park.Perm s.park ∧ u.seq = s.seq ∧
      u.acct.committed = s.acct.committed - (s.tray t).commitment + (s.tray t).commitment := by
  obtain ⟨htrays, hpark, hagenda, hacct, hseq, _, _, _, hqueue⟩ := setTrayBegun_same t c s
  have ho' := hagenda.trans ho
  have hbt (n : TrayId) : (setTrayBegun t c s).tray n = s.tray n := tray_congr htrays n
  have hcom (b : Bool) : ((s.tray t).rewrite c b).commitment = (s.tray t).commitment := rewrite_commitment b hq hi hlaw
  generalize hv : (setTrayBegun t c s).claimed t ((s.tray t).rewrite c (s.zoneInLeak c)) = v
  have hput : setTrayRecord t c s = v := by
    rw [setTrayRecord_eq, ← hv]
    refine putTray_of_le ho' ?_
    rw [hbt, hcom]
  have htr (n : TrayId) : v.tray n = if n = t then (s.tray t).rewrite c (s.zoneInLeak c) else s.tray n := by
    rw [← hv, claimed_tray, hbt]
  have hcodes' (n : TrayId) : (v.tray n).failsCheck = false := by
    rw [htr]
    split
    · rfl
    · exact hcodes n
  have hout : (v.tray t).state ≠ .queued ∧ (v.tray t).state ≠ .parked := by
    rw [htr, if_pos rfl]
    show rewriteState _ _ ≠ _ ∧ rewriteState _ _ ≠ _
    rw [rewriteState_locked hlock hq hi hp]
    split
    · exact ⟨hq, hp⟩
    · split <;> decide
  have hacct : v.acct.committed = s.acct.committed - (s.tray t).commitment + (s.tray t).commitment := by
    rw [← hv]
    show (setTrayBegun t c s).acct.committed - ((setTrayBegun t c s).tray t).commitment + _ = _
    rw [hacct, hbt, hcom]
  have hpasses := setTrayPasses_locked (wasHeld := s.held t) hlock hq hi hp hcodes' (hcom false).ge hout
  rw [← hput, ← setTrayTaken_eq, hput] at hpasses
  rcases hpasses with e | e
  · have hown : v.agenda = Agenda.none := hv ▸ ho'
    rw [e, finish_none hown]
    exact ⟨htr, hv ▸ hqueue, hv ▸ hpark ▸ .refl _, hv ▸ hseq, hacct⟩
  · have hown : (sortPark v).agenda = Agenda.none := hv ▸ ho'
    rw [e, finish_none hown]
    refine ⟨htr, hv ▸ hqueue, (sortBy_perm ..).trans ?_, hv ▸ hseq, hacct⟩
    exact hv ▸ hpark ▸ .refl _

/-- Settles O24: the record of a locked tray, and the Park List re-sorted at most. -/
theorem setTrayUnlocksATray : Obligations.SetTrayUnlocksATray := by
  intro s p tag b rev f t c h hquiet ht hf hrev hlock hq hi hp hlaw
  have hread : (s.tray t).failsCheck = false := by simp [Tray.failsCheck, hlock]
  obtain ⟨htr, hqueue, hpark, hseq, hacct⟩ := setTrayTaken_locked (c := c) h.1.1.2 hquiet.1 hlock hq hi hp hlaw
  refine ⟨_, setTray_accepted h ht hf hrev hread (Or.inl hlock) rfl, ?_⟩
  rw [htr, if_pos rfl]
  exact ⟨rfl, rfl, rfl, rfl, if_neg hi, rfl, rewrite_commitment _ hq hi hlaw, rewriteState_locked hlock hq hi hp,
    fun n hn => (htr n).trans (if_neg hn), hqueue, hpark, hseq, hacct⟩

end Sys2Proof.Machine
end

section
/-! SUPPORT. PLAN_OPEN, PLAN_ABORT and an accepted PLAN_COMMIT at a leased port (R54, R56, R57). -/

namespace Sys2Proof.Machine

variable {s : State} {p : Port}

/-! ### PLAN_OPEN and PLAN_ABORT -/

theorem openStaging_listed {plan : List PlanEntry} {i : Fin 32} {e : PlanEntry} (h : plan[i.val]? = some e) :
    (openStaging p plan).positions[i] = { tray := some e.tray, bad := e.code == .failing } := by
  simp [openStaging, h]

theorem openStaging_empty {plan : List PlanEntry} {i : Fin 32} (h : plan.length ≤ i.val) :
    (openStaging p plan).positions[i] = { tray := none, bad := false } := by
  simp [openStaging, h]

/-- A position's number is among the bad ones exactly when it carries the mark: the numbers fit in a byte. -/
theorem mem_badPositions (g : Staging) (i : Fin 32) : byte i.val ∈ g.badPositions ↔ g.positions[i].bad = true := by
  have inj {a b : Fin 32} (h : byte a.val = byte b.val) : a = b := by
    have := congrArg BitVec.toNat h
    simp only [byte, BitVec.toNat_ofNat] at this
    omega
  unfold Staging.badPositions
  rw [List.mem_map]
  constructor
  · rintro ⟨j, hj, e⟩
    rw [← inj e]
    exact (List.mem_filter.mp hj).2
  · exact fun h => ⟨i, List.mem_filter.mpr ⟨List.mem_finRange i, h⟩, rfl⟩

theorem PlanEntry.tested_tray (e : PlanEntry) : e.tested.tray = e.tray := by
  unfold PlanEntry.tested
  split <;> rfl

theorem PlanEntry.tested_code (e : PlanEntry) : e.tested.code = e.code := by
  unfold PlanEntry.tested
  split <;> rfl

theorem reportEntries_plan (s : State) (i : Nat) :
    (reportEntries s).seq.plan[i]? = (s.seq.plan[i]?).map PlanEntry.tested := by
  rw [reportEntries, (reportEntries_to s (Nat.le_refl _)).plan]
  by_cases h : i < s.seq.plan.length
  · simp [h]
  · rw [List.getElem?_eq_none (Nat.le_of_not_lt h)]
    rfl

theorem reportEntries_seq (s : State) : (reportEntries s).seq = { s.seq with plan := (reportEntries s).seq.plan } :=
  congrArg State.seq (reportEntries_to s (Nat.le_refl _)).rest

theorem reportEntries_length (s : State) : (reportEntries s).seq.plan.length = s.seq.plan.length := by
  rw [(reportEntries_reported s).1]
  simp

/-- An accepted PLAN_OPEN after the report of the failing entries. -/
def planOpened (p : Port) (s : State) : State × Answer :=
  let g := openStaging p s.seq.plan
  let s := journalise .planOpen (some (.port p)) none none (setStaging g s)
  answerNow ([s.seq.planRev, byte g.length] ++ g.badPositions) s

theorem planOpened_eq (p : Port) (s : State) : planOpened p s =
    (journalise .planOpen (some (.port p)) none none (setStaging (openStaging p s.seq.plan) s),
      ⟨.ok, [s.seq.planRev, byte (openStaging p s.seq.plan).length] ++ (openStaging p s.seq.plan).badPositions⟩) := by
  unfold planOpened answerNow
  dsimp only
  generalize openStaging p s.seq.plan = g
  generalize g.badPositions = bad
  rfl

theorem planOpen_settled (h : s.leased p) (tag rev : Byte) :
    (rev ≠ s.seq.planRev → exec (.planOpen p tag rev) s = .next (respond p tag ⟨.stale, []⟩ s)) ∧
    (∀ q, rev = s.seq.planRev → s.seq.staging.holder = some q → q ≠ p →
      exec (.planOpen p tag rev) s = .next (respond p tag ⟨.stagingHeld, []⟩ s)) ∧
    (rev = s.seq.planRev → s.seq.staging.holder = none ∨ s.seq.staging.holder = some p →
      ∃ (u : State) (g : Staging) (bad : List Byte), s.entriesReported u ∧ g.holder = some p ∧ g.length = s.seq.plan.length ∧
        g.pointer = 0 ∧
        (∀ i : Fin 32, ∀ e, s.seq.plan[i.val]? = some e →
          g.positions[i].tray = some e.tray ∧ (g.positions[i].bad = true ↔ e.code = .failing)) ∧
        (∀ i : Fin 32, s.seq.plan.length ≤ i.val → g.positions[i].tray = none ∧ g.positions[i].bad = false) ∧
        (∀ i : Fin 32, byte i.val ∈ bad ↔ g.positions[i].bad = true) ∧
        exec (.planOpen p tag rev) s = .next (respond p tag ⟨.ok, [s.seq.planRev, byte g.length] ++ bad⟩
          (journalise .planOpen (some (.port p)) none none { u with seq := { u.seq with staging := g } }))) := by
  refine ⟨fun hr => next_leased h tag (if_pos hr), fun q hr hq hne => next_leased h tag ?_, fun hr hh => ?_⟩
  · refine (if_neg (not_not.mpr hr)).trans (if_pos ?_)
    simp [hq, hne]
  · have free : s.seq.staging.holder.any (· != p) = false := by rcases hh with e | e <;> simp [e]
    have hrev : (reportEntries s).seq.planRev = s.seq.planRev := by rw [reportEntries_seq]
    have hplan := reportEntries_plan s
    have hlength := reportEntries_length s
    have hbody : (if rev ≠ s.seq.planRev then refuse .stale s
        else if s.seq.staging.holder.any (· != p) then refuse .stagingHeld s else planOpened p (reportEntries s)) =
          planOpened p (reportEntries s) := by rw [if_neg (not_not.mpr hr), free, if_neg Bool.false_ne_true]
    have hexec : exec (.planOpen p tag rev) s = .next (respond p tag (planOpened p (reportEntries s)).2
        (planOpened p (reportEntries s)).1) := next_leased h tag hbody
    have hrep := reportEntries_reported s
    generalize reportEntries s = v at *
    refine ⟨v, openStaging p v.seq.plan, (openStaging p v.seq.plan).badPositions, hrep, rfl, hlength, rfl,
      fun i e he => ?_, fun i hi => ?_, mem_badPositions _, ?_⟩
    · have hn := (hplan i.val).trans (congrArg (Option.map PlanEntry.tested) he)
      rw [openStaging_listed hn]
      exact ⟨congrArg some e.tested_tray, by rw [beq_iff_eq, e.tested_code]⟩
    · rw [openStaging_empty (by rw [hlength]; exact hi)]
      exact ⟨rfl, rfl⟩
    · rw [hexec, planOpened_eq, ← hrev]
      rfl

theorem planAbort_settled (h : s.leased p) (tag : Byte) :
    (s.seq.staging.holder ≠ some p → exec (.planAbort p tag) s = .next (respond p tag ⟨.state, []⟩ s)) ∧
    (s.seq.staging.holder = some p →
      exec (.planAbort p tag) s = .next (respond p tag ⟨.ok, []⟩
        (journalise .planDiscard (some (.port p)) none (some .aborted) { s with seq := { s.seq with staging :=
          { s.seq.staging with positions := Vector.replicate 32 { tray := none, bad := false }, holder := none } } }))) := by
  refine ⟨fun hh => next_leased h tag (if_pos (bne_iff_ne.mpr hh)), fun hh => next_leased h tag ?_⟩
  have hd : discardStaging p .aborted s = journalise .planDiscard (some (.port p)) none (some .aborted) (clearStaging s) :=
    if_pos (beq_iff_eq.mpr hh)
  refine (if_neg (by simp [hh])).trans ?_
  rw [hd]
  rfl

/-- Settles O25: PLAN_OPEN and PLAN_ABORT, each by its checks in order. -/
theorem planOpenAndAbort : Obligations.PlanOpenAndAbort :=
  ⟨fun _ _ tag rev h => planOpen_settled h tag rev, fun _ _ tag h => planAbort_settled h tag⟩

/-! ### PLAN_COMMIT -/

/-- A list without repeats has no first repeat. -/
theorem firstRepeat_nodup {ts : List TrayId} (h : ts.Nodup) : firstRepeat ts = none := by
  unfold firstRepeat
  rw [List.find?_eq_none]
  intro i hi hc
  rw [List.mem_range] at hi
  rw [List.getElem?_eq_getElem hi, Option.any_some, List.contains_iff_mem, List.mem_take_iff_getElem] at hc
  obtain ⟨j, hj, e⟩ := hc
  have := (h.getElem_inj_iff).mp e
  omega

/-- The keys of a plan without repeats: a listed tray's position, and 32 plus the index of any other (R9). -/
theorem planKeys_listed {ts : List TrayId} (h : ts.Nodup) {i : Nat} {t : TrayId} (ht : ts[i]? = some t) :
    (planKeys ts)[t] = i := by
  obtain ⟨hi, e⟩ := List.getElem?_eq_some_iff.mp ht
  have : ts.findIdx? (· == t) = some i := by
    rw [List.findIdx?_eq_some_iff_getElem]
    refine ⟨hi, by simpa using e, fun j hj => ?_⟩
    rw [beq_iff_eq]
    intro hje
    have := (h.getElem_inj_iff).mp (hje.trans e.symm)
    omega
  simp [planKeys, this]

theorem planKeys_unlisted {ts : List TrayId} {t : TrayId} (ht : t ∉ ts) : (planKeys ts)[t] = 32 + t.val := by
  have : ts.findIdx? (· == t) = none := by
    rw [List.findIdx?_eq_none_iff]
    intro x hx
    exact beq_false_of_ne fun e => ht (e ▸ hx)
  simp [planKeys, this]

/-- The judged positions of a copy that lists trays without a mark are sound, and name the trays. -/
theorem judged_sound {g : Staging} {ts : List TrayId}
    (h : g.positions.toList.take g.length = ts.map fun t => { tray := some t, bad := false }) :
    g.badPosition = none ∧ g.trays = ts := by
  unfold Staging.badPosition Staging.trays Staging.judged
  rw [h]
  constructor
  · rw [List.findIdx?_eq_none_iff]
    intro x hx
    obtain ⟨t, _, rfl⟩ := List.mem_map.mp hx
    rfl
  · rw [List.filterMap_map]
    exact List.filterMap_some

/-- Settles O28: the new plan, the re-sort that no lock disturbs, and the staging released. -/
theorem planCommitReplacesThePlan : Obligations.PlanCommitReplacesThePlan := by
  intro s p tag ts h hcodes hholder hjudged hnodup
  obtain ⟨hbad, htrays⟩ := judged_sound hjudged
  have hcommit : commitTaken p s = journalise .planCommit (some (.port p)) (some (s.seq.planRev + 1).toNat) none
      (clearStaging (sortPark (commitPlan s))) := by
    rw [commitTaken_eq, resort_passes (s := commitPlan s) hcodes]
  have hkeys (t : TrayId) : (clearStaging (sortPark (commitPlan s))).key t = (planKeys ts)[t] := by
    rw [← htrays]
    rfl
  refine ⟨clearStaging (sortPark (commitPlan s)), next_leased h tag ?_, by rw [← htrays]; rfl, rfl, rfl,
    fun i t ht => ?_, fun t ht => ?_, sortBy_perm .., sortPark_pairwise (commitPlan s), rfl, rfl, rfl, rfl, rfl⟩
  · refine (if_neg (by simp [hholder])).trans ?_
    rw [hbad, htrays, firstRepeat_nodup hnodup]
    dsimp only
    rw [hcommit]
    exact answerAfter_none _ _ h.1.1.2
  · rw [hkeys, planKeys_listed hnodup ht]
  · rw [hkeys, planKeys_unlisted ht]

end Sys2Proof.Machine
end

section
/-! SUPPORT. Steady moves: those that stay within a holdup state and keep, for a rack whose records, sums and collections agree,
what the states allow and committed within usable capacity (R30, R76, R89). Sinking moves: steady ones that take trays to rest
at most. -/

namespace Sys2Proof.Machine

variable {s t u : State}

/-! ### What a holdup state allows a record -/

/-- The record is one that the holdup state allows, and its frozen commitment covers its grant. -/
structure State.allows (s : State) (r : Tray) : Prop where
  started : s.isNormal = false → r.state ≠ .queued ∧ r.state ≠ .inrush
  dark : s.isNormal = false → s.onBattery = false → r.state ≠ .run ∧ r.state ≠ .parked
  cover : r.locked = true → r.state = .queued ∨ r.state = .inrush → r.grant ≤ r.frozen

/-- Every record is one that the holdup state allows. -/
def State.standing (s : State) : Prop := ∀ n : TrayId, s.allows (s.tray n)

theorem allows_congr {r : Tray} (h : u.hup = s.hup) : u.allows r ↔ s.allows r := by
  have hn : u.isNormal = s.isNormal := by unfold State.isNormal; rw [h]
  have hb : u.onBattery = s.onBattery := by unfold State.onBattery; rw [h]
  constructor
  · rintro ⟨h1, h2, h3⟩
    exact ⟨hn ▸ h1, hn ▸ hb ▸ h2, h3⟩
  · rintro ⟨h1, h2, h3⟩
    exact ⟨hn ▸ h1, hn ▸ hb ▸ h2, h3⟩

/-- The states without a commitment that a tray can be taken to in any holdup state. -/
def TrayState.rests : TrayState → Bool
  | .idle | .parked | .isolated | .faulted => true
  | _ => false

theorem commitFor_rests {st : TrayState} (h : st.rests = true) (r : Tray) (g : Nat) : r.commitFor st g = 0 := by
  cases st <;> first | rfl | exact absurd h Bool.false_ne_true

/-! ### Steady moves -/

/-- The second state follows from the first within a holdup state: the holdup record, the automatic run due mark and the basis of
the account stay, every record stays one that the holdup state allows, and committed stays within usable capacity. -/
structure Steady (s u : State) : Prop where
  table : s.tableSound → u.tableSound
  hup : u.hup = s.hup
  due : u.seq.autoDue = s.seq.autoDue
  basis : (u.acct.shelf, u.acct.battery, u.acct.usable, u.acct.mode) =
    (s.acct.shelf, s.acct.battery, s.acct.usable, s.acct.mode)
  standing : s.tableSound → s.standing → u.standing
  budget : s.tableSound → s.standing → s.budgetKept → u.budgetKept

theorem Evolves.tableSound (h : Evolves s u) (hs : s.tableSound) : u.tableSound :=
  ⟨h.recordsLawful hs.lawful, h.committedSums hs.sums, h.collectionsAgree hs.collections⟩

theorem Steady.refl (s : State) : Steady s s := ⟨id, rfl, rfl, rfl, fun _ h => h, fun _ _ h => h⟩

theorem Steady.trans (h : Steady s t) (h' : Steady t u) : Steady s u where
  table hs := h'.table (h.table hs)
  hup := h'.hup.trans h.hup
  due := h'.due.trans h.due
  basis := h'.basis.trans h.basis
  standing hs ha := h'.standing (h.table hs) (h.standing hs ha)
  budget hs ha hb := h'.budget (h.table hs) (h.standing hs ha) (h.budget hs ha hb)

theorem Steady.ite {c : Prop} [Decidable c] {a b : State} (ha : c → Steady s a) (hb : ¬c → Steady s b) :
    Steady s (if c then a else b) := by
  split
  · exact ha ‹_›
  · exact hb ‹_›

theorem Steady.isNormal (h : Steady s u) : u.isNormal = s.isNormal := by unfold State.isNormal; rw [h.hup]

theorem Steady.mode (h : Steady s u) : u.acct.mode = s.acct.mode := by
  have hb := h.basis
  simp only [Prod.mk.injEq] at hb
  exact hb.2.2.2

theorem Steady.isSettled (h : Steady s u) : u.isSettled = s.isSettled := by unfold State.isSettled; rw [h.mode]

theorem Steady.onBattery (h : Steady s u) : u.onBattery = s.onBattery := by unfold State.onBattery; rw [h.hup]

/-- A change that leaves the records and the account as they are. -/
theorem Steady.aside (h : s.tableSound → u.tableSound) (hh : u.hup = s.hup) (hd : u.seq.autoDue = s.seq.autoDue)
    (ht : u.trays = s.trays) (ha : u.acct = s.acct) : Steady s u where
  table := h
  hup := hh
  due := hd
  basis := by rw [ha]
  standing _ hs n := by
    rw [tray_congr ht]
    exact (allows_congr hh).mpr (hs n)
  budget _ _ hb hm := by
    rw [ha]
    exact hb (by rwa [State.isSettled, ha] at hm)

/-- A move that leaves the records and the account as they are. -/
theorem Steady.beside (h : Evolves s u) (hh : u.hup = s.hup) (hd : u.seq.autoDue = s.seq.autoDue) (ht : u.trays = s.trays)
    (ha : u.acct = s.acct) : Steady s u := .aside h.tableSound hh hd ht ha

theorem commitment_le_committed (h : s.tableSound) (n : TrayId) : (s.tray n).commitment ≤ s.acct.committed := by
  rw [h.sums]
  exact List.single_le_sum (fun _ _ => Nat.zero_le _) _ (List.mem_map_of_mem (List.mem_finRange n))

/-- A move that replaces one record by one that the holdup state allows. -/
theorem Steady.record {n : TrayId} {r : Tray} (h : s.tableSound → u.tableSound) (hh : u.hup = s.hup) (hd : u.seq.autoDue = s.seq.autoDue)
    (ht : ∀ m, u.tray m = if m = n then r else s.tray m)
    (hu : (u.acct.shelf, u.acct.battery, u.acct.usable, u.acct.mode) =
      (s.acct.shelf, s.acct.battery, s.acct.usable, s.acct.mode))
    (hr : (s.tray n).lawful → s.allows (s.tray n) → s.allows r)
    (hb : s.tableSound → s.allows (s.tray n) → s.budgetKept → u.budgetKept) : Steady s u where
  table := h
  hup := hh
  due := hd
  basis := hu
  standing hs hst m := by
    rw [allows_congr hh, ht]
    split
    · exact hr (hs.lawful n) (hst n)
    · exact hst m
  budget hs hst hbud := hb hs (hst n) hbud

/-- A record replaced with no change of its commitment. -/
theorem Steady.mark {n : TrayId} {r : Tray} (h : Evolves s (s.setRecord n r))
    (hr : (s.tray n).lawful → s.allows (s.tray n) → s.allows r) : Steady s (s.setRecord n r) :=
  .record h.tableSound rfl rfl (fun m => setRecord_tray n m r s) rfl hr fun _ _ hb => hb

/-- A record replaced with a change of its commitment that fits. -/
theorem Steady.replace {n : TrayId} {r : Tray} (h : s.tableSound → u.tableSound) (hh : u.hup = s.hup) (hd : u.seq.autoDue = s.seq.autoDue)
    (ht : ∀ m, u.tray m = if m = n then r else s.tray m)
    (ha : u.acct = { s.acct with committed := s.acct.committed - (s.tray n).commitment + r.commitment })
    (hr : (s.tray n).lawful → s.allows (s.tray n) → s.allows r)
    (hb : (s.tray n).lawful → s.allows (s.tray n) → s.isSettled = true → s.acct.committed ≤ s.acct.usable →
      r.commitment ≤ (s.tray n).commitment ∨ r.commitment ≤ (s.tray n).commitment + s.headroom) : Steady s u := by
  refine .record h hh hd ht (by rw [ha]) hr fun hs hst hbud hm => ?_
  have hle := commitment_le_committed hs n
  have hm' : s.isSettled = true := by
    unfold State.isSettled at hm ⊢
    rwa [ha] at hm
  have hc := hbud hm'
  rw [ha]
  show s.acct.committed - (s.tray n).commitment + r.commitment ≤ s.acct.usable
  rcases hb (hs.lawful n) hst hm' hc with h | h
  · omega
  · unfold State.headroom at h
    omega

/-! ### Moves beside the records -/

theorem setAgenda_steady (a : Agenda) (s : State) : Steady s (s.setAgenda a) := .beside (.agenda ..) rfl rfl rfl rfl
theorem opportunity_steady (s : State) : Steady s (opportunity s) := setAgenda_steady ..
theorem admissionDue_steady (s : State) : Steady s (admissionDue s) := setAgenda_steady ..
theorem setPace_steady (v : Option Nat) (s : State) : Steady s (s.setPace v) := .beside (.pace ..) rfl rfl rfl rfl
theorem journalise_steady (k : Kind) (a : Option Subject) (v : Option Nat) (r : Option Reason) (s : State) :
    Steady s (journalise k a v r s) := .beside (.entry ..) rfl rfl rfl rfl
theorem raise_steady (c : Alert) (s : State) : Steady s (raise c s) := .beside (.alarm ..) rfl rfl rfl rfl
theorem sortPark_steady (s : State) : Steady s (sortPark s) := .beside (.sorted s) rfl rfl rfl rfl
theorem trapFailure_steady (x : TrapSource) (s : State) : Steady s (trapFailure x s) := by
  refine .beside (.trapped x s) ?_ ?_ ?_ ?_ <;> rw [trapFailure_eq]

/-! ### Moves of one tray -/

theorem leaveCollection_hup (n : TrayId) (s : State) : (leaveCollection n s).hup = s.hup := by
  unfold leaveCollection dequeue freeSlot
  split <;> first | rfl | (dsimp only; split <;> rfl)

theorem leaveCollection_autoDue (n : TrayId) (s : State) : (leaveCollection n s).seq.autoDue = s.seq.autoDue := by
  unfold leaveCollection dequeue freeSlot
  split <;> first | rfl | (dsimp only; split <;> rfl)

theorem joinCollection_hup (n : TrayId) (st : TrayState) (s : State) : (joinCollection n st s).hup = s.hup := by
  unfold joinCollection
  split <;> simp

theorem joinCollection_autoDue (n : TrayId) (st : TrayState) (s : State) :
    (joinCollection n st s).seq.autoDue = s.seq.autoDue := by
  unfold joinCollection enqueue
  split <;> first | rfl | (dsimp only [opportunity, State.setAgenda]; split <;> rfl)

/-- What a move leaves: the holdup record and the automatic run due mark, and of the account all but committed. -/
theorem moveBare_frame (n : TrayId) (st : TrayState) (g : Nat) (c : Option FaultCause) (s : State) :
    (moveBare n st g c s).hup = s.hup ∧ (moveBare n st g c s).seq.autoDue = s.seq.autoDue ∧
      (moveBare n st g c s).acct = { s.acct with
        committed := s.acct.committed - (s.tray n).commitment + (s.tray n).commitFor st g } := by
  rw [moveBare_eq, joinCollection_hup, joinCollection_autoDue, joinCollection_acct]
  have put (v : State) (ht : v.trays = s.trays) (hh : v.hup = s.hup) (hd : v.seq.autoDue = s.seq.autoDue)
      (ha : v.acct = s.acct) : let w := (leaveCollection n v).putTray n (((leaveCollection n v).tray n).enter st g c)
      w.hup = s.hup ∧ w.seq.autoDue = s.seq.autoDue ∧ w.acct = { s.acct with
        committed := s.acct.committed - (s.tray n).commitment + (s.tray n).commitFor st g } := by
    have hn := tray_congr ((leaveCollection_trays n v).trans ht) n
    refine ⟨(leaveCollection_hup n v).trans hh, (leaveCollection_autoDue n v).trans hd, ?_⟩
    unfold State.putTray
    dsimp only
    rw [leaveCollection_acct, ha, hn]
    rfl
  unfold leaveAndPut
  dsimp only
  split
  · exact put _ rfl rfl rfl rfl
  · exact put _ rfl rfl rfl rfl

theorem Steady.moved {n : TrayId} {st : TrayState} {g : Nat} {c : Option FaultCause} (h : Evolves s (moveBare n st g c s))
    (hr : (s.tray n).lawful → s.allows (s.tray n) → s.allows ((s.tray n).enter st g c))
    (hb : (s.tray n).lawful → s.allows (s.tray n) → s.isSettled = true → s.acct.committed ≤ s.acct.usable →
      (s.tray n).commitFor st g ≤ (s.tray n).commitment ∨
        (s.tray n).commitFor st g ≤ (s.tray n).commitment + s.headroom) : Steady s (moveBare n st g c s) := by
  obtain ⟨hh, hd, ha⟩ := moveBare_frame n st g c s
  exact .replace h.tableSound hh hd (fun m => moveBare_tray n st g c s m) ha hr hb

/-- A tray that may be PARKED: in NORMAL any tray, and otherwise one that has been started or parked. -/
def State.parks (s : State) (n : TrayId) : Prop := s.isNormal = true ∨ (s.tray n).state = .run ∨ (s.tray n).state = .parked

/-- A move to a state without a commitment is steady in every holdup state. -/
theorem moveBare_rests {n : TrayId} {st : TrayState} {g : Nat} {c : Option FaultCause} (hst : st.rests = true)
    (hg : st = .idle ∨ st = .isolated ∨ st = .faulted → g = 0) (hc : c.isSome = true ↔ st = .faulted)
    (hp : st = .parked → s.parks n ∨ (s.tray n).state = .queued ∨ (s.tray n).state = .inrush) :
    Steady s (moveBare n st g c s) := by
  refine .moved (.moved n st g c s (by rintro rfl; exact Bool.false_ne_true hst) hg hc) (fun _ ha => ?_)
    fun _ _ _ _ => Or.inl (by rw [commitFor_rests hst]; exact Nat.zero_le _)
  have hq : st ≠ .queued := by rintro rfl; exact Bool.false_ne_true hst
  have hi : st ≠ .inrush := by rintro rfl; exact Bool.false_ne_true hst
  refine ⟨fun _ => ⟨hq, hi⟩, fun hn hb => ⟨by rintro rfl; exact Bool.false_ne_true hst, fun e => ?_⟩,
    fun _ h => absurd h (by rintro (e | e); exact hq e; exact hi e)⟩
  rcases hp e with (h | h | h) | h | h
  · rw [hn] at h
    exact Bool.false_ne_true h
  · exact (ha.dark hn hb).1 h
  · exact (ha.dark hn hb).2 h
  · exact (ha.started hn).1 h
  · exact (ha.started hn).2 h

/-! ### Sinking moves -/

/-- A steady move that takes trays to rest at most. -/
structure Sinks (s u : State) : Prop extends Steady s u where
  states : ∀ n, (u.tray n).state = (s.tray n).state ∨ (u.tray n).state.rests = true

theorem Sinks.refl (s : State) : Sinks s s := ⟨.refl s, fun _ => Or.inl rfl⟩

theorem Sinks.trans (h : Sinks s t) (h' : Sinks t u) : Sinks s u := by
  refine ⟨h.toSteady.trans h'.toSteady, fun n => ?_⟩
  rcases h'.states n with e | e
  · rw [e]
    exact h.states n
  · exact Or.inr e

theorem Sinks.ite {c : Prop} [Decidable c] {a b : State} (ha : c → Sinks s a) (hb : ¬c → Sinks s b) :
    Sinks s (if c then a else b) := by
  split
  · exact ha ‹_›
  · exact hb ‹_›

theorem Sinks.foldl {α : Type} {f : State → α → State} (h : ∀ s a, Sinks s (f s a)) (l : List α) (s : State) :
    Sinks s (l.foldl f s) := by
  induction l generalizing s with
  | nil => exact .refl s
  | cons a l ih => exact (h s a).trans (ih _)

/-- A steady move that leaves the records as they are. -/
theorem Steady.sinks (h : Steady s u) (ht : u.trays = s.trays) : Sinks s u :=
  ⟨h, fun n => Or.inl (by rw [tray_congr ht])⟩

/-- A tray that a sinking move leaves in QUEUED, INRUSH or RUN was there before. -/
theorem Sinks.from (h : Sinks s u) {n : TrayId} {st : TrayState} (hu : (u.tray n).state = st) (hst : st.rests = false) :
    (s.tray n).state = st := by
  rcases h.states n with e | e
  · exact e ▸ hu
  · rw [hu, hst] at e
    exact absurd e Bool.false_ne_true

theorem setAgenda_sinks (a : Agenda) (s : State) : Sinks s (s.setAgenda a) := (setAgenda_steady a s).sinks rfl
theorem admissionDue_sinks (s : State) : Sinks s (admissionDue s) := setAgenda_sinks ..
theorem journalise_sinks (k : Kind) (a : Option Subject) (v : Option Nat) (r : Option Reason) (s : State) :
    Sinks s (journalise k a v r s) := (journalise_steady k a v r s).sinks rfl
theorem raise_sinks (c : Alert) (s : State) : Sinks s (raise c s) := (raise_steady c s).sinks rfl
theorem sortPark_sinks (s : State) : Sinks s (sortPark s) := (sortPark_steady s).sinks rfl
theorem trapFailure_sinks (x : TrapSource) (s : State) : Sinks s (trapFailure x s) :=
  (trapFailure_steady x s).sinks (by rw [trapFailure_eq])

theorem moveBare_sinks {n : TrayId} {st : TrayState} {g : Nat} {c : Option FaultCause} (hst : st.rests = true)
    (hg : st = .idle ∨ st = .isolated ∨ st = .faulted → g = 0) (hc : c.isSome = true ↔ st = .faulted)
    (hp : st = .parked → s.parks n ∨ (s.tray n).state = .queued ∨ (s.tray n).state = .inrush) :
    Sinks s (moveBare n st g c s) := by
  refine ⟨moveBare_rests hst hg hc hp, fun m => ?_⟩
  rw [moveBare_tray]
  split
  · exact Or.inr hst
  · exact Or.inl rfl

theorem move_idle_sinks (n : TrayId) (s : State) : Sinks s (moveBare n .idle 0 none s) :=
  moveBare_sinks rfl (fun _ => rfl) (by simp) (by simp)

theorem isolate_sinks (z : ZoneId) (n : TrayId) (s : State) : Sinks s (isolate z n s) :=
  ((moveBare_sinks rfl (fun _ => rfl) (by simp) (by simp)).trans (journalise_sinks ..)).trans (admissionDue_sinks _)

theorem pickLeakZone_sinks (e : Option ZoneId) (s : State) : Sinks s (pickLeakZone e s).2 := by
  unfold pickLeakZone
  split
  · exact .refl s
  · split
    · exact .refl s
    · exact .refl s
    · exact (Steady.beside (.drawn (s.draws + 1) s) rfl rfl rfl rfl).sinks rfl

/-- A lawful commitment covers the grant while a tray waits or starts, when a lock's frozen one does (R4, R21). -/
theorem grant_le_commitment {r : Tray} (hl : r.lawful) (hcov : r.locked = true → r.state = .queued ∨ r.state = .inrush →
    r.grant ≤ r.frozen) (hst : r.state = .queued ∨ r.state = .inrush) : r.grant ≤ r.commitment := by
  have hc : r.commitment = if r.locked then r.frozen else max r.cfg.inrush r.grant := by
    rw [hl.1]
    rcases hst with e | e <;> rw [e] <;> rfl
  rw [hc]
  split
  · exact hcov ‹_› hst
  · exact Nat.le_max_right ..

/-- The lock of a tray: what it freezes covers the grant (R4, R18). -/
theorem lock_sinks (n : TrayId) (s : State) : Sinks s (s.setRecord n (s.tray n).lockedNow) := by
  refine ⟨.mark (.mark n _ s rfl rfl (lock_follows _)) fun hl ha => ⟨ha.started, ha.dark, fun _ hst => ?_⟩,
    fun m => Or.inl ?_⟩
  · exact grant_le_commitment (r := s.tray n) hl ha.cover hst
  · rw [setRecord_tray]
    split
    · rename_i e
      rw [e]
      rfl
    · rfl

theorem lockOne_sinks (e : Option ZoneId) (n : TrayId) (s : State) : Sinks s (lockOne e n s) := by
  have h := (lock_sinks n s).trans (sortPark_sinks _)
  unfold lockOne
  refine .trans ?_ (raise_sinks ..)
  refine .trans ?_ (journalise_sinks ..)
  refine .trans ?_ (trapFailure_sinks ..)
  split
  · have h' := h.trans (pickLeakZone_sinks e _)
    split
    · rename_i z s' heq
      erw [heq] at h'
      exact h'.trans (isolate_sinks ..)
    · rename_i s' heq
      erw [heq] at h'
      exact h'
  · exact h

theorem testMembers_sinks (e : Option ZoneId) (m : TrayState → Bool) (s : State) : Sinks s (testMembers e m s) :=
  .foldl (fun s n => .ite (fun _ => .ite (fun _ => lockOne_sinks e n s) fun _ => .refl s) fun _ => .refl s) _ s

theorem checkReadIn_sinks (e : Option ZoneId) (n : TrayId) (s : State) : Sinks s (checkReadIn e n s) := by
  unfold checkReadIn
  refine .ite (fun _ => (lockOne_sinks e n s).trans ?_) fun _ => .refl s
  exact .ite (fun _ => testMembers_sinks ..) fun _ => .ite (fun _ => testMembers_sinks ..) fun _ => .refl _

theorem checkRead_sinks (n : TrayId) (s : State) : Sinks s (checkRead n s) := checkReadIn_sinks none n s

theorem readAll_sinks (s : State) : Sinks s (readAll s) := .foldl (fun s n => checkRead_sinks n s) _ s

theorem resort_sinks (s : State) : Sinks s (resort s) :=
  ((testMembers_sinks ..).trans (testMembers_sinks ..)).trans (sortPark_sinks _)

/-- A move to a state without a commitment, with the reads that placing it in the Park List takes. -/
theorem move_sinks {n : TrayId} {st : TrayState} {g : Nat} {c : Option FaultCause} (hst : st.rests = true)
    (hg : st = .idle ∨ st = .isolated ∨ st = .faulted → g = 0) (hc : c.isSome = true ↔ st = .faulted)
    (hp : st = .parked → s.parks n ∨ (s.tray n).state = .queued ∨ (s.tray n).state = .inrush) :
    Sinks s (move n st g c s) :=
  (moveBare_sinks hst hg hc hp).trans (.ite (fun _ => testMembers_sinks ..) fun _ => .refl _)

/-- A tray that has been moved to rest is at rest. -/
theorem move_rests {n : TrayId} {st : TrayState} (g : Nat) (c : Option FaultCause) (s : State) (hst : st.rests = true) :
    ((move n st g c s).tray n).state.rests = true := by
  have h : ((moveBare n st g c s).tray n).state = st := by rw [moveBare_tray, if_pos rfl]; rfl
  have h' : Sinks (moveBare n st g c s) (move n st g c s) :=
    .ite (fun _ => testMembers_sinks ..) fun _ => .refl _
  rcases h'.states n with e | e
  · rw [e, h]
    exact hst
  · exact e

theorem move_parked_sinks {n : TrayId} (g : Nat)
    (hp : s.parks n ∨ (s.tray n).state = .queued ∨ (s.tray n).state = .inrush) : Sinks s (move n .parked g none s) :=
  move_sinks rfl (by simp) (by simp) fun _ => hp

theorem isolateIfInZone_sinks (z : ZoneId) (s : State) (n : TrayId) : Sinks s (isolateIfInZone z s n) :=
  (checkReadIn_sinks (some z) n s).trans (.ite (fun _ => isolate_sinks ..) fun _ => .refl _)

theorem returnTray_sinks (z : ZoneId) (l : Bool) (s : State) (n : TrayId) : Sinks s (returnTray z l s n) :=
  .ite (fun _ => move_idle_sinks n s) fun _ => .refl s

theorem readMark_sinks (marks : Vector Bool 32) (s : State) (n : TrayId) : Sinks s (readMark marks s n) := by
  unfold readMark
  refine .ite (fun _ => (checkRead_sinks n s).trans ?_) fun _ => .refl s
  exact .ite (fun _ => (journalise_sinks ..).trans (raise_sinks ..)) fun _ =>
    .ite (fun _ => (journalise_sinks ..).trans (raise_sinks ..)) fun _ => .refl _

theorem faultReport_sinks (n : TrayId) (polled : TrayState) (s : State) : Sinks s (faultReport n polled s) := by
  unfold faultReport
  refine .ite (fun _ => journalise_sinks ..) fun _ => ?_
  exact (((move_sinks rfl (fun _ => rfl) (by simp) (by simp)).trans (journalise_sinks ..)).trans (raise_sinks ..)).trans
    (admissionDue_sinks _)

theorem releaseTaken_sinks (n : TrayId) (s : State) : Sinks s (releaseTaken n s) :=
  ((move_sinks rfl (fun _ => rfl) (by simp) (by simp)).trans (journalise_sinks ..)).trans (admissionDue_sinks _)

theorem stageShed_sinks (k : Nat) (s : State) (m : Nat) (n : TrayId) : Sinks s (stageShed k (s, m) n).1 := by
  unfold stageShed
  dsimp only
  split
  · split
    · rename_i h
      rw [Bool.and_eq_true, beq_iff_eq] at h
      exact ((checkRead_sinks n s).trans (move_parked_sinks _ (Or.inl (Or.inr (Or.inl h.1))))).trans (journalise_sinks ..)
    · exact checkRead_sinks n s
  · exact .refl s

theorem darkenTray_sinks (s : State) (n : TrayId) : Sinks s (darkenTray s n) := by
  unfold darkenTray
  split
  all_goals first | exact move_idle_sinks n s | exact .refl s

end Sys2Proof.Machine
end

section
/-! SUPPORT. The shortfall pass ends with committed within usable capacity: each round takes a tray out of QUEUED, or out of
INRUSH and RUN, and without any of these nothing is committed (R47). -/

namespace Sys2Proof.Machine

variable {s t u : State}

/-! ### How many trays are in some of the states -/

/-- The trays whose state satisfies a test. -/
def State.inStates (s : State) (m : TrayState → Bool) : List TrayId := allTrays.filter fun n => m (s.tray n).state

theorem mem_inStates {m : TrayState → Bool} {n : TrayId} : n ∈ s.inStates m ↔ m (s.tray n).state = true := by
  unfold State.inStates allTrays
  simp

theorem inStates_length_le (s : State) (m : TrayState → Bool) : (s.inStates m).length ≤ 32 :=
  (List.length_filter_le ..).trans_eq (List.length_finRange ..)

theorem Sinks.inStates_sublist (h : Sinks s u) {m : TrayState → Bool} (hm : ∀ st, m st = true → st.rests = false) :
    (u.inStates m).Sublist (s.inStates m) := by
  refine List.monotone_filter_right _ fun n hn => ?_
  rcases h.states n with e | e
  · exact e ▸ hn
  · exact absurd ((hm _ hn).symm.trans e) Bool.false_ne_true

theorem Sinks.fewer (h : Sinks s u) {m : TrayState → Bool} (hm : ∀ st, m st = true → st.rests = false) :
    (u.inStates m).length ≤ (s.inStates m).length := (h.inStates_sublist hm).length_le

/-- A sinking move that takes a tray out of the states leaves fewer trays there. -/
theorem Sinks.fewer_of_leaves (h : Sinks s u) {m : TrayState → Bool} (hm : ∀ st, m st = true → st.rests = false) {n : TrayId}
    (hs : m (s.tray n).state = true) (hu : (u.tray n).state.rests = true) :
    (u.inStates m).length < (s.inStates m).length := by
  refine lt_of_le_of_ne (h.fewer hm) fun e => ?_
  have := (h.inStates_sublist hm).eq_of_length e
  have hn : n ∈ u.inStates m := this ▸ mem_inStates.mpr hs
  exact absurd ((hm _ (mem_inStates.mp hn)).symm.trans hu) Bool.false_ne_true

/-- With no tray in QUEUED, INRUSH or RUN nothing is committed (R4, R30). -/
theorem committed_of_rests (h : s.tableSound) (hr : ∀ n, (s.tray n).state.rests = true) : s.acct.committed = 0 := by
  rw [h.sums]
  refine List.sum_eq_zero fun x hx => ?_
  obtain ⟨n, _, rfl⟩ := List.mem_map.mp hx
  rw [(h.lawful n).1, commitFor_rests (hr n)]

/-! ### The rounds -/

theorem shortfallMove_sinks (r : Reason) {n : TrayId}
    (hp : s.parks n ∨ (s.tray n).state = .queued ∨ (s.tray n).state = .inrush) : Sinks s (shortfallMove r n s) :=
  ((move_parked_sinks _ hp).trans (journalise_sinks ..)).trans (raise_sinks ..)

theorem shortfallMove_rests (r : Reason) (n : TrayId) (s : State) :
    ((shortfallMove r n s).tray n).state.rests = true := by
  have h := move_rests (n := n) (st := .parked) (s.tray n).grant none s rfl
  unfold shortfallMove
  dsimp only
  generalize move n .parked (s.tray n).grant none s = v at h ⊢
  exact h

theorem enabled_not_rests (st : TrayState) (h : st.enabled = true) : st.rests = false := by
  cases st <;> first | rfl | exact absurd h Bool.false_ne_true

theorem queued_not_rests (st : TrayState) (h : (st == .queued) = true) : st.rests = false := by
  rw [eq_of_beq h]
  rfl

/-- The withdrawals sink trays, and end within usable capacity or with no tray QUEUED. -/
theorem withdrawals_ends (k : Nat) (s : State) (h : s.tableSound) (hk : (s.inStates (· == .queued)).length ≤ k) :
    Sinks s (withdrawals k s) ∧ ((withdrawals k s).acct.committed ≤ (withdrawals k s).acct.usable ∨
      ∀ n, ((withdrawals k s).tray n).state ≠ .queued) := by
  induction k generalizing s with
  | zero =>
    refine ⟨.refl s, Or.inr fun n hn => ?_⟩
    have : n ∈ s.inStates (· == .queued) := mem_inStates.mpr (beq_iff_eq.mpr hn)
    exact absurd (List.length_pos_of_mem this) (by omega)
  | succ k ih =>
    unfold withdrawals
    split
    · rename_i hover
      split
      · rename_i n hn
        have hq : (s.tray n).state = .queued := (h.collections.2.2.1 n).mp (List.mem_of_getLast? hn)
        have sink := shortfallMove_sinks .withdrawn (s := s) (n := n) (Or.inr (Or.inl hq))
        have few := sink.fewer_of_leaves queued_not_rests (beq_iff_eq.mpr hq) (shortfallMove_rests ..)
        obtain ⟨h1, h2⟩ := ih _ (sink.table h) (by omega)
        exact ⟨sink.trans h1, h2⟩
      · rename_i hn
        refine ⟨.refl s, Or.inr fun n hq => ?_⟩
        have := (h.collections.2.2.1 n).mpr hq
        rw [List.getLast?_eq_none_iff.mp hn] at this
        exact absurd this List.not_mem_nil
    · rename_i hfit
      exact ⟨.refl s, Or.inl (Nat.le_of_not_lt hfit)⟩

/-- One round of the sheds, whose state and whose answer are read apart. -/
theorem shedRound_eq (s : State) : shedRound s =
    if s.acct.usable < s.acct.committed then
      (testMembers none TrayState.enabled s, shedNext (testMembers none TrayState.enabled s))
    else (s, none) := rfl

theorem shedNext_some {n : TrayId} (h : shedNext s = some n) : (s.tray n).state.enabled = true := by
  unfold shedNext at h
  split at h
  · have hm := (sortBy_perm ..).mem_iff.mp (List.mem_of_head? h)
    exact (List.mem_filter.mp hm).2
  · exact absurd h (by simp)

theorem shedNext_none (h : shedNext s = none) :
    s.acct.committed ≤ s.acct.usable ∨ ∀ n, (s.tray n).state.enabled = false := by
  unfold shedNext at h
  split at h
  · refine Or.inr fun n => Bool.eq_false_iff.mpr fun hn => ?_
    have hmem : n ∈ s.shedOrder :=
      (sortBy_perm ..).mem_iff.mpr (List.mem_filter.mpr ⟨List.mem_finRange n, hn⟩)
    rw [List.head?_eq_none_iff.mp h] at hmem
    exact absurd hmem List.not_mem_nil
  · rename_i hfit
    exact Or.inl (Nat.le_of_not_lt hfit)

theorem parks_of_enabled {n : TrayId} (h : (s.tray n).state.enabled = true) :
    s.parks n ∨ (s.tray n).state = .queued ∨ (s.tray n).state = .inrush := by
  cases e : (s.tray n).state <;> rw [e] at h <;> first | exact absurd h Bool.false_ne_true | skip
  · exact Or.inr (Or.inr rfl)
  · exact Or.inl (Or.inr (Or.inl e))

/-- The sheds sink trays, and end within usable capacity or with no tray in INRUSH and RUN. -/
theorem sheds_ends (k : Nat) (s : State) (hk : (s.inStates TrayState.enabled).length ≤ k) :
    Sinks s (sheds k s) ∧ ((sheds k s).acct.committed ≤ (sheds k s).acct.usable ∨
      ∀ n, ((sheds k s).tray n).state.enabled = false) := by
  induction k generalizing s with
  | zero =>
    refine ⟨.refl s, Or.inr fun n => Bool.eq_false_iff.mpr fun hn => ?_⟩
    have : n ∈ s.inStates TrayState.enabled := mem_inStates.mpr hn
    exact absurd (List.length_pos_of_mem this) (by omega)
  | succ k ih =>
    unfold sheds
    rw [shedRound_eq]
    by_cases hover : s.acct.usable < s.acct.committed
    · rw [if_pos hover]
      have read := testMembers_sinks none TrayState.enabled s
      have fewer := read.fewer enabled_not_rests
      generalize testMembers none TrayState.enabled s = v at read fewer ⊢
      cases hn : shedNext v with
      | some n =>
        have he := shedNext_some hn
        have sink := shortfallMove_sinks .shed (parks_of_enabled he)
        have few := sink.fewer_of_leaves enabled_not_rests he (shortfallMove_rests ..)
        obtain ⟨h1, h2⟩ := ih (shortfallMove .shed n v) (by omega)
        exact ⟨(read.trans sink).trans h1, h2⟩
      | none => exact ⟨read, shedNext_none hn⟩
    · rw [if_neg hover]
      exact ⟨.refl s, Or.inl (Nat.le_of_not_lt hover)⟩

theorem sheds_fits (k : Nat) (h : s.acct.committed ≤ s.acct.usable) : sheds k s = s := by
  cases k with
  | zero => rfl
  | succ k =>
    unfold sheds
    rw [shedRound_eq, if_neg (Nat.not_lt.mpr h)]

/-- The shortfall pass sinks trays and ends with committed within usable capacity. -/
theorem shortfallPass_ends (h : s.tableSound) : Sinks s (shortfallPass s) ∧
    (shortfallPass s).acct.committed ≤ (shortfallPass s).acct.usable := by
  obtain ⟨sink, hends⟩ := withdrawals_ends 32 s h (inStates_length_le ..)
  have hv := sink.table h
  unfold shortfallPass
  generalize withdrawals 32 s = v at sink hends hv ⊢
  obtain ⟨sink', hends'⟩ := sheds_ends 32 v (inStates_length_le ..)
  have hw := sink'.table hv
  have hfit : (sheds 32 v).acct.committed ≤ (sheds 32 v).acct.usable := by
    rcases hends with hfit | hq
    · rw [sheds_fits 32 hfit]
      exact hfit
    · rcases hends' with hfit | he
      · exact hfit
      · rw [committed_of_rests hw fun n => ?_]
        · exact Nat.zero_le _
        · have hn := he n
          have hq' : ((sheds 32 v).tray n).state ≠ .queued := fun e => hq n (sink'.from e rfl)
          cases e : ((sheds 32 v).tray n).state <;> rw [e] at hn hq' <;>
            first | rfl | exact absurd rfl hq' | exact absurd hn Bool.false_ne_true.symm
  generalize sheds 32 v = w at sink' hfit ⊢
  exact ⟨(sink.trans sink').trans (setAgenda_sinks ..), hfit⟩

theorem shortfallIfDue_sinks (h : s.tableSound) : Sinks s (shortfallIfDue s) :=
  .ite (fun _ => (shortfallPass_ends h).1) fun _ => .refl s

/-- The shortfall pass that is due leaves committed within usable capacity outside RECOVERING. -/
theorem shortfallIfDue_budget (h : s.tableSound) : (shortfallIfDue s).budgetKept := by
  unfold shortfallIfDue
  split
  · exact fun _ => (shortfallPass_ends h).2
  · rename_i hdue
    intro hm
    rw [hm, Bool.true_and, decide_eq_true_eq] at hdue
    exact Nat.le_of_not_lt hdue

end Sys2Proof.Machine
end

section
/-! SUPPORT. Starts, window ends, plan runs, admissions and resizes are steady: what they commit fits, and they take trays to QUEUED
and INRUSH in NORMAL only (R30, R37, R38, R43, R50, R59, R66). -/

namespace Sys2Proof.Machine

variable {s t u : State} {n : TrayId}

/-! ### Marks -/

/-- Marks that leave the state, the grant, the commitment and the lock of a record as they are. -/
theorem Steady.marks {r : Tray} (h : Evolves s (s.setRecord n r)) (hs : r.state = (s.tray n).state)
    (hg : r.grant = (s.tray n).grant) (hl : r.locked = (s.tray n).locked) (hf : r.frozen = (s.tray n).frozen) :
    Steady s (s.setRecord n r) :=
  .mark h fun _ ha => ⟨hs ▸ ha.started, hs ▸ ha.dark, by rw [hl, hs, hg, hf]; exact ha.cover⟩

theorem clearAdopted_steady (n : TrayId) (s : State) : Steady s (clearAdopted n s) :=
  .marks (clearAdopted_evolves n s) rfl rfl rfl rfl

theorem setDeferred_steady (n : TrayId) (v : Bool) (s : State) (h : v = true → (s.tray n).state.keepsMarks = true) :
    Steady s (setDeferred n v s) := .marks (setDeferred_evolves n v s h) rfl rfl rfl rfl

theorem setOverCap_steady (n : TrayId) (v : Bool) (d : Option Nat) (s : State)
    (h : v = true → (s.tray n).state.keepsMarks = true) : Steady s (setOverCap n v d s) := by
  have h' := setOverCap_evolves n v d s h
  unfold setOverCap at h' ⊢
  by_cases hv : ((s.tray n).overCap == v) = true
  · rw [if_pos hv]
    exact .refl s
  · rw [if_neg hv] at h' ⊢
    refine .record h'.tableSound rfl rfl (fun m => setRecord_tray n m { s.tray n with overCap := v } s) rfl ?_
      fun _ _ hb => hb
    exact fun _ ha => ⟨ha.started, ha.dark, ha.cover⟩

theorem triesLeft_steady (n : TrayId) (k : Nat) (s : State) (hk : (s.tray n).lawful → k ≤ (s.tray n).cfg.tries) :
    Steady s (s.setRecord n { s.tray n with triesLeft := k }) := .marks (triesLeft_evolves n k s hk) rfl rfl rfl rfl

theorem clearMarks_steady (n : TrayId) (d : Option Nat) (s : State) : Steady s (clearMarks n d s) :=
  (setOverCap_steady n false d s (by simp)).trans (setDeferred_steady n false _ (by simp))

/-! ### Into the Start Queue -/

theorem move_queued_eq (n : TrayId) (g : Nat) (s : State) : move n .queued g none s = moveBare n .queued g none s := rfl

theorem move_run_eq (n : TrayId) (g : Nat) (s : State) : move n .run g none s = moveBare n .run g none s := rfl

theorem move_inrush_eq (n : TrayId) (g : Nat) (s : State) : move n .inrush g none s = moveBare n .inrush g none s := rfl

/-- A tray that is not locked is queued in NORMAL when its commitment fits. -/
theorem move_queued_steady {g : Nat} (hn : s.isNormal = true) (hl : (s.tray n).locked = false)
    (hf : s.fits ((s.tray n).commitFor .queued g) = true) : Steady s (move n .queued g none s) := by
  rw [move_queued_eq]
  refine .moved (move_queued_evolves n g s) (fun _ _ => ⟨fun h => ?_, fun h => ?_, fun h => ?_⟩) fun _ _ _ _ => Or.inr ?_
  · exact absurd (hn.symm.trans h) (by decide)
  · exact absurd (hn.symm.trans h) (by decide)
  · exact absurd (hl.symm.trans h) Bool.false_ne_true
  · unfold State.fits at hf
    rw [decide_eq_true_eq] at hf
    omega

/-- A retry keeps the grant and the commitment of its INRUSH tray. -/
theorem move_retry_steady (hi : (s.tray n).state = .inrush) : Steady s (move n .queued (s.tray n).grant none s) := by
  rw [move_queued_eq]
  refine .moved (move_queued_evolves n _ s) (fun _ ha => ⟨fun h => ?_, fun h => ?_, fun h _ => ?_⟩)
    fun hl _ _ _ => Or.inl (le_of_eq ?_)
  · exact absurd hi (ha.started h).2
  · exact absurd hi (ha.started h).2
  · exact ha.cover h (Or.inr hi)
  · rw [hl.1, hi]
    rfl

theorem queueOrPark_steady {g : Nat} (hn : s.isNormal = true) (hl : (s.tray n).locked = false) :
    Steady s (queueOrPark n g s).1 := by
  have hp := (move_parked_sinks (n := n) (s := s) g (Or.inl (Or.inl hn))).toSteady
  have hq := move_queued_steady (n := n) (g := g) hn hl
  unfold queueOrPark
  generalize move n .parked g none s = v at hp ⊢
  generalize move n .queued g none s = w at hq ⊢
  split
  · exact hq ‹_›
  · exact hp

/-! ### Starts -/

theorem armWindow_started_steady {j : SlotId} {code : Fin 4} (hq : (s.tray n).state = .queued)
    (hj : s.seq.slots[j] = none) : Steady s (armWindow j n code (move n .inrush (s.tray n).grant none s)) := by
  rw [move_inrush_eq]
  obtain ⟨hh, hd, ha⟩ := moveBare_frame n .inrush (s.tray n).grant none s
  have h : Evolves s (armWindow j n code (moveBare n .inrush (s.tray n).grant none s)) := .started n j code _ s hq hj
  have ht := moveBare_tray n .inrush (s.tray n).grant none s
  generalize moveBare n .inrush (s.tray n).grant none s = v at hh hd ha h ht ⊢
  refine .replace (n := n) (r := (s.tray n).enter .inrush (s.tray n).grant none) h.tableSound hh hd ht ha
    (fun _ ha => ⟨fun h => absurd hq (ha.started h).1, fun h => absurd hq (ha.started h).1, fun h _ => ?_⟩)
    fun hl _ _ _ => Or.inl (le_of_eq ?_)
  · exact ha.cover h (Or.inl hq)
  · rw [hl.1, hq]
    rfl

theorem startTray_steady {j : SlotId} (hq : (s.tray n).state = .queued) (hj : s.seq.slots[j] = none) :
    Steady s (startTray n j s) := by
  have h := armWindow_started_steady (n := n) (code := (s.cfg n).window) hq hj
  unfold startTray
  exact (h.trans (.ite (fun _ => setPace_steady ..) fun _ => .refl _)).trans (journalise_steady ..)

theorem startFirst_steady (l : List TrayId) (s : State) : Steady s (startFirst l s).1 := by
  induction l generalizing s with
  | nil => exact .refl s
  | cons n ns ih =>
    unfold startFirst
    split
    · exact ih s
    · rename_i hq
      dsimp only
      split
      · exact (checkRead_sinks n s).toSteady.trans (ih _)
      · rename_i hl
        rw [checkRead_unlocked hl]
        split
        · rename_i j hj
          refine startTray_steady ?_ (freeSlot?_free hj)
          simp only [Bool.or_eq_true, bne_iff_ne, not_or, ne_eq, not_not] at hq
          exact hq.1
        · exact .refl s

theorem gapStarts_steady (k : Nat) (s : State) : Steady s (gapStarts k s) := by
  induction k generalizing s with
  | zero => exact .refl s
  | succ k ih =>
    have h := startFirst_steady s.queue s
    unfold gapStarts
    split
    · generalize startFirst s.queue s = x at h ⊢
      exact h.trans (.ite (fun _ => ih _) fun _ => .refl _)
    · exact .refl s

theorem offerStart_steady (s : State) : Steady s (offerStart s) := by
  unfold offerStart
  exact (setAgenda_steady _ s).trans (.ite (fun _ => gapStarts_steady ..) fun _ => .refl _)

theorem cadenceStart_steady (s : State) : Steady s (cadenceStart s) :=
  .ite (fun _ => startFirst_steady ..) fun _ => .refl s

/-! ### Window ends -/

/-- A tray that enters RUN at its grant commits no more than it did in INRUSH. -/
theorem move_run_steady (hi : (s.tray n).state = .inrush) : Steady s (move n .run (s.tray n).grant none s) := by
  rw [move_run_eq]
  refine .moved (move_run_evolves n _ s) (fun _ ha => ⟨fun h => ?_, fun h => ?_, fun _ h => ?_⟩)
    fun hl ha _ _ => Or.inl (grant_le_commitment hl ha.cover (Or.inr hi))
  · exact absurd hi (ha.started h).2
  · exact absurd hi (ha.started h).2
  · exact absurd h (by rintro (e | e) <;> exact absurd (show TrayState.run = _ from e) (by decide))

theorem startSucceeded_steady (hi : (s.tray n).state = .inrush) : Steady s (startSucceeded n s) := by
  have h := (move_run_steady hi).trans (checkRead_sinks n _).toSteady
  unfold startSucceeded
  dsimp only
  generalize checkRead n (move n .run (s.tray n).grant none s) = v at h ⊢
  refine .trans ?_ (admissionDue_steady _)
  refine .trans ?_ (journalise_steady ..)
  exact h.trans (.ite (fun _ => .refl v) fun _ => triesLeft_steady n _ v fun _ => Nat.le_refl _)

theorem startFailed_steady (hi : (s.tray n).state = .inrush) : Steady s (startFailed n s) := by
  unfold startFailed
  refine .trans ?_ (raise_steady ..)
  refine .ite (fun _ => ?_) fun _ => ?_
  · have h := triesLeft_steady n ((s.tray n).triesLeft - 1) s fun h => Nat.le_trans (Nat.sub_le _ 1) h.2.2.2.2.2
    have hi' : ((s.setRecord n { s.tray n with triesLeft := (s.tray n).triesLeft - 1 }).tray n).state = .inrush := by
      rw [setRecord_tray_self]
      exact hi
    have h' := move_retry_steady hi'
    rw [setRecord_tray_self] at h'
    exact (h.trans h').trans (journalise_steady ..)
  · exact ((move_sinks rfl (fun _ => rfl) (by simp) (by simp)).toSteady.trans (journalise_steady ..)).trans
      (admissionDue_steady _)

/-- The tray of an occupied slot is INRUSH (R12). -/
theorem slot_inrush (h : s.collectionsAgree) {j : SlotId} {w : Slot} (hw : s.seq.slots[j] = some w) :
    (s.tray w.tray).state = .inrush := (h.2.2.2.2.1 w.tray).mp ⟨j, by rw [hw]; rfl⟩

theorem windowEnd_steady (j : SlotId) (h : s.collectionsAgree) : Steady s (windowEnd j s) := by
  unfold windowEnd
  split
  · exact .refl s
  · rename_i w hw
    have hi := slot_inrush h hw
    exact .ite (fun _ => startSucceeded_steady hi) fun _ => startFailed_steady hi

theorem powerGoodReport_steady (window : Option (SlotId × Nat)) (pg : Bool) (h : s.tableSound) :
    Steady s (powerGoodReport window pg s) := by
  unfold powerGoodReport
  match window with
  | none => exact .refl s
  | some (j, start) =>
    dsimp only
    split
    · exact .refl s
    · rename_i w hw
      refine .ite (fun _ => .refl s) fun _ => ?_
      have hj : Steady s (s.setSlot j (some { w with report := if pg then .good else .notGood })) :=
        .beside (.judged j w _ s hw) rfl rfl rfl rfl
      exact hj.trans (.ite (fun _ => windowEnd_steady j (hj.table h).collections) fun _ => .refl _)

/-! ### Admissions and plan runs -/

theorem admissionWalk_steady (l : List TrayId) (s : State) (hn : s.isNormal = true) : Steady s (admissionWalk l s) := by
  induction l generalizing s with
  | nil => exact .refl s
  | cons n ns ih =>
    unfold admissionWalk
    split
    · exact ih s hn
    · have read := (checkRead_sinks n s).toSteady
      dsimp only
      split
      · exact read.trans (ih _ (read.isNormal.trans hn))
      · rename_i hl
        have he := checkRead_unlocked hl
        rw [he] at hl ⊢
        split
        · rename_i hf
          have h := (move_queued_steady hn (Bool.eq_false_iff.mpr hl) hf).trans (journalise_steady .admitted (some (.tray n))
            (some ((s.tray n).commitFor .queued (s.tray n).grant)) none _)
          exact h.trans (ih _ (h.isNormal.trans hn))
        · exact .refl s

theorem admissionPass_steady (hn : s.isNormal = true) : Steady s (admissionPass s) :=
  (admissionWalk_steady s.park s hn).trans (setAgenda_steady ..)

theorem admissionIfAllowed_steady (s : State) : Steady s (admissionIfAllowed s) :=
  .ite (fun h => admissionPass_steady ((Bool.and_eq_true _ _).mp h).1) fun _ => .refl s

theorem reportEntry_steady (i : Nat) (s : State) : Steady s (reportEntry i s) := by
  cases he : s.seq.plan[i]? with
  | none =>
    have : reportEntry i s = s := by unfold reportEntry; rw [he]
    rw [this]
    exact .refl s
  | some e =>
    cases hn : e.news with
    | true =>
      have h := reportEntry_evolves i s
      rw [reportEntry_news he hn] at h ⊢
      exact .beside h rfl rfl rfl rfl
    | false =>
      rw [reportEntry_old he hn]
      exact .refl s

theorem Steady.foldl {α : Type} {f : State → α → State} (h : ∀ s a, Steady s (f s a)) (l : List α) (s : State) :
    Steady s (l.foldl f s) := by
  induction l generalizing s with
  | nil => exact .refl s
  | cons a l ih => exact (h s a).trans (ih _)

theorem reportEntries_steady (s : State) : Steady s (reportEntries s) := .foldl (fun s i => reportEntry_steady i s) _ s

/-- An eligible tray is not locked. -/
theorem planSkip_unlocked {automatic : Bool} (h : planSkip automatic n s = none) : (s.tray n).locked = false := by
  unfold planSkip at h
  dsimp only at h
  by_contra hl
  rw [if_pos (by simpa using hl)] at h
  exact absurd h (by simp)

theorem planRunEntry_steady (automatic : Bool) (s : State) (k : RunCounts) (i : Nat) (hn : s.isNormal = true) :
    Steady s (planRunEntry automatic (s, k) i).1 := by
  unfold planRunEntry
  dsimp only
  split
  · exact .refl s
  · rename_i e he
    split
    · exact (reportEntry_steady i s).trans (journalise_steady ..)
    · split
      · exact journalise_steady ..
      · have read := (checkRead_sinks e.tray s).toSteady
        split
        · exact read.trans (journalise_steady ..)
        · rename_i hskip
          have h := read.trans (queueOrPark_steady (g := ((checkRead e.tray s).cfg e.tray).standing)
            (read.isNormal.trans hn) (planSkip_unlocked hskip))
          generalize queueOrPark e.tray ((checkRead e.tray s).cfg e.tray).standing (checkRead e.tray s) = x at h ⊢
          obtain ⟨u, b⟩ := x
          cases b <;> exact h

theorem planRunEntries_steady (automatic : Bool) (l : List Nat) (s : State) (k : RunCounts) (hn : s.isNormal = true) :
    Steady s (l.foldl (planRunEntry automatic) (s, k)).1 := by
  induction l generalizing s k with
  | nil => exact .refl s
  | cons i l ih =>
    have h := planRunEntry_steady automatic s k i hn
    rw [List.foldl_cons]
    exact h.trans (ih _ _ (h.isNormal.trans hn))

theorem planRun_steady (automatic : Bool) (hn : s.isNormal = true) : Steady s (planRun automatic s).1 := by
  have h := planRunEntries_steady automatic (List.range s.seq.plan.length) s { queued := 0, parked := 0, skipped := 0 } hn
  unfold planRun
  generalize (List.range s.seq.plan.length).foldl (planRunEntry automatic)
    (s, { queued := 0, parked := 0, skipped := 0 }) = x at h ⊢
  exact h.trans (journalise_steady ..)

/-! ### Resizes -/

theorem commitFor_mono (r : Tray) (st : TrayState) {g g' : Nat} (h : g ≤ g') : r.commitFor st g ≤ r.commitFor st g' := by
  unfold Tray.commitFor
  split
  · split
    · exact Nat.le_refl _
    · omega
  · split
    · exact Nat.le_refl _
    · omega
  · exact h
  · exact Nat.le_refl _

/-- A grant that falls, or whose rise of commitment fits, on a tray that is not locked or is PARKED. -/
theorem resizeGrant_steady {g : Nat} {k : Bool} (h : (s.tray n).state.keepsMarks = true ∨ (s.tray n).state = .parked)
    (hl : (s.tray n).locked = false ∨ (s.tray n).state = .parked)
    (hg : g ≤ (s.tray n).grant ∨ (s.tray n).state = .parked ∨
      s.fits ((s.tray n).commitFor (s.tray n).state g - (s.tray n).commitment) = true) :
    Steady s (resizeGrant n g k s) := by
  have hev := resizeGrant_evolves n g k s h
  refine .replace hev.tableSound rfl rfl (fun m => putTray_tray n m _ s) rfl
    (fun _ ha => ⟨ha.started, ha.dark, fun hlock hst => ?_⟩) fun hlaw _ _ _ => ?_
  · rcases hl with e | e
    · exact absurd (e.symm.trans hlock) Bool.false_ne_true
    · exact absurd (show (s.tray n).state = .queued ∨ (s.tray n).state = .inrush from hst) (by simp [e])
  · rcases hg with e | e | e
    · refine Or.inl ?_
      rw [hlaw.1]
      exact commitFor_mono _ _ e
    · refine Or.inl ?_
      show (s.tray n).commitFor (s.tray n).state g ≤ _
      rw [e]
      exact Nat.zero_le _
    · refine Or.inr ?_
      unfold State.fits at e
      rw [decide_eq_true_eq] at e
      show (s.tray n).commitFor (s.tray n).state g ≤ _
      omega

theorem resizeRequest_steady (g : Nat) (h : (s.tray n).state.keepsMarks = true) (hl : (s.tray n).locked = false) :
    Steady s (resizeRequest n g s) := by
  unfold resizeRequest
  refine .ite (fun _ => setDeferred_steady n false s (by simp)) fun _ => .ite (fun hg => ?_)
    fun _ => setDeferred_steady n true s fun _ => h
  refine ((resizeGrant_steady (Or.inl h) (Or.inl hl) ?_).trans (journalise_steady ..)).trans
    (.ite (fun _ => admissionDue_steady _) fun _ => .refl _)
  rw [Bool.or_eq_true, decide_eq_true_eq, Bool.and_eq_true] at hg
  rcases hg with e | ⟨_, e⟩
  · exact Or.inl (Nat.le_of_lt e)
  · exact Or.inr (Or.inr e)

theorem setOverCap_locked (n : TrayId) (v : Bool) (d : Option Nat) (s : State) :
    ((setOverCap n v d s).tray n).locked = (s.tray n).locked := by
  unfold setOverCap
  split
  · rfl
  · show ((s.setRecord n { s.tray n with overCap := v }).tray n).locked = _
    rw [setRecord_tray, if_pos rfl]

theorem selfRequest_steady (polled : TrayState) (demand : Nat) (h : polled.keepsMarks = true) :
    Steady s (selfRequest n polled demand s) := by
  unfold selfRequest
  split
  · exact .refl s
  · rename_i hp
    have hst : (s.tray n).state = polled := by simpa using hp
    dsimp only
    split
    · exact (checkRead_sinks n s).toSteady.trans (clearMarks_steady ..)
    · rename_i hl
      simp only [Bool.or_eq_true, not_or] at hl
      have hlock := hl.1.1
      have he := checkRead_unlocked hlock
      rw [he] at hlock ⊢
      have hk : (s.tray n).state.keepsMarks = true := hst ▸ h
      have hk' (v : Bool) (d : Option Nat) : ((setOverCap n v d s).tray n).state.keepsMarks = true := by
        rw [setOverCap_state]
        exact hk
      refine (setOverCap_steady n (decide ((s.tray n).cfg.cap < demand)) (some demand) s fun _ => hk).trans ?_
      refine .ite (fun _ => setDeferred_steady _ _ _ (by simp)) fun _ => .ite (fun _ => ?_) fun _ => ?_
      · exact resizeRequest_steady _ (hk' ..) (by rw [setOverCap_locked]; exact Bool.eq_false_iff.mpr hlock)
      · exact setDeferred_steady _ _ _ fun _ => hk' ..

theorem selfStart_steady (n : TrayId) (demand : Nat) (s : State) : Steady s (selfStart n demand s) := by
  unfold selfStart
  split
  · exact .refl s
  · dsimp only
    have read := (checkRead_sinks n s).toSteady
    split
    · exact read
    · rename_i hc
      simp only [Bool.or_eq_true, not_or] at hc
      have hl := hc.1.1.1.1.1.1.1
      have hn := hc.1.1.1.1.1.2
      refine (read.trans (queueOrPark_steady ?_ (Bool.eq_false_iff.mpr hl))).trans (journalise_steady ..)
      simpa using hn

theorem holdLifted_steady (n : TrayId) (s : State) : Steady s (holdLifted n s) :=
  (opportunity_steady s).trans (.ite (fun _ => admissionDue_steady _) fun _ => .refl _)

/-! ### GRANT -/

theorem grantEntry_steady (n : TrayId) (g : Nat) (why : Reason) (s : State) : Steady s (grantEntry n g why s) :=
  journalise_steady ..

theorem grantIdle_steady (n : TrayId) (g : Nat) (park : Bool) (s : State) : Steady s (grantIdle n g park s).1 := by
  have read := (checkRead_sinks n s).toSteady
  unfold grantIdle
  split
  · exact .refl s
  · rename_i hn
    have hn' : (checkRead n s).isNormal = true := by
      rw [read.isNormal]
      simpa using hn
    dsimp only
    split
    · exact read
    · rename_i hl
      split
      · rename_i hf
        exact (read.trans (move_queued_steady hn' (Bool.eq_false_iff.mpr hl) hf)).trans (grantEntry_steady ..)
      · split
        · exact (read.trans (move_parked_sinks g (Or.inl (Or.inl hn'))).toSteady).trans (grantEntry_steady ..)
        · exact read

theorem grantResize_steady {g : Nat} (h : (s.tray n).state.keepsMarks = true) (hl : (s.tray n).locked = false)
    (hg : g ≤ (s.tray n).grant ∨ s.fits ((s.tray n).commitFor (s.tray n).state g - (s.tray n).commitment) = true) :
    Steady s (grantResize n g s) := by
  unfold grantResize
  exact ((resizeGrant_steady (Or.inl h) (Or.inl hl) (hg.imp_right Or.inr)).trans (grantEntry_steady ..)).trans
    (.ite (fun _ => admissionDue_steady _) fun _ => .refl _)

/-- The last tests of GRANT on a started tray: the lock, and the rise. -/
theorem grantResize_tested {g : Nat} (h : (s.tray n).state.keepsMarks = true) :
    Steady s (if (s.tray n).locked then (s, Status.locked)
      else if (s.tray n).grant < g ∧ !s.fits ((s.tray n).commitFor (s.tray n).state g - (s.tray n).commitment) then
        (s, .noHeadroom)
      else (grantResize n g s, .ok)).1 := by
  split
  · exact .refl s
  · rename_i hl
    split
    · exact .refl s
    · rename_i hf
      refine grantResize_steady h (Bool.eq_false_iff.mpr hl) ?_
      rw [not_and_or, Nat.not_lt, Bool.not_eq_true', Bool.not_eq_false] at hf
      exact hf

theorem grantActive_steady (g : Nat) (h : (s.tray n).state.keepsMarks = true) : Steady s (grantActive n g s).1 := by
  unfold grantActive
  split
  · exact clearAdopted_steady n s
  · split
    · exact .refl s
    · by_cases hr : (s.tray n).state = .run
      · dsimp only
        rw [if_pos hr]
        exact grantResize_tested h
      · dsimp only
        rw [if_neg hr]
        by_cases hl : ((checkRead n s).tray n).locked = true
        · rw [if_pos hl]
          exact (checkRead_sinks n s).toSteady
        · rw [checkRead_unlocked hl]
          exact grantResize_tested h

theorem grantTaken_steady (n : TrayId) (g : Nat) (park : Bool) (s : State) : Steady s (grantTaken n g park s).1 := by
  unfold grantTaken
  split
  · exact grantIdle_steady ..
  · rename_i h
    exact grantActive_steady g (by rw [h]; rfl)
  · rename_i h
    exact grantActive_steady g (by rw [h]; rfl)
  · rename_i h
    exact grantActive_steady g (by rw [h]; rfl)
  · rename_i h
    exact ((resizeGrant_steady (Or.inr h) (Or.inr h) (Or.inr (Or.inl h))).trans (grantEntry_steady ..)).trans
      (admissionDue_steady _)
  · exact .refl s
  · exact .refl s

end Sys2Proof.Machine
end

section
/-! SUPPORT. The end of an event in NORMAL, and START_RACK: a plan run over any plan, over an empty plan and over one entry
(R20, R37, R59, R60). -/

namespace Sys2Proof.Machine

variable {s t u : State} {n : TrayId} {p : Port}

/-! ### The end of an event in NORMAL -/

theorem warmRegain_normal (hn : s.isNormal = true) : s.warmRegain = false := by
  have h : s.hup.state = .normal := by simpa [State.isNormal] using hn
  simp [State.warmRegain, h]

theorem regainTest_normal (hn : s.isNormal = true) : regainTest s = s := regainTest_idle (warmRegain_normal hn)

/-- In NORMAL the committed-fall test changes nothing, so the end of a claim is at most an admission pass. -/
theorem endClaim_steady_normal (hn : s.isNormal = true) : Steady s (endClaim s) := by
  unfold endClaim
  dsimp only
  generalize ({ s.agenda with admission := false, shortfall := false } : Agenda) = a
  have h : Steady s (if (s.agenda.admission && !s.agenda.shortfall) = true then admissionIfAllowed (s.setAgenda a)
      else s.setAgenda a) :=
    .ite (fun _ => (setAgenda_steady a s).trans (admissionIfAllowed_steady _)) fun _ => setAgenda_steady a s
  generalize (if (s.agenda.admission && !s.agenda.shortfall) = true then admissionIfAllowed (s.setAgenda a)
    else s.setAgenda a) = v at h ⊢
  refine .ite (fun _ => ?_) fun _ => h
  have hv := h.trans (setAgenda_steady { v.agenda with fell := false } v)
  rw [regainTest_normal (hv.isNormal.trans hn)]
  exact hv

theorem finishRounds_steady_normal (k : Nat) (hn : s.isNormal = true) : Steady s (finishRounds k s) := by
  induction k generalizing s with
  | zero => exact .refl s
  | succ k ih =>
    have hc := endClaim_steady_normal hn
    have ho := hc.trans (offerStart_steady _)
    unfold finishRounds
    exact .ite (fun _ => .ite (fun _ => ho.trans (ih (ho.isNormal.trans hn))) fun _ => ho) fun _ => hc

theorem finish_steady_normal (hn : s.isNormal = true) : Steady s (finish s) :=
  (finishRounds_steady_normal 33 hn).trans (setAgenda_steady ..)

/-! ### The end of an event that owes no admission pass -/

theorem offerStart_waiting (h : s.startsWait) : offerStart s = s.setAgenda { s.agenda with opportunity := false } := by
  unfold offerStart
  dsimp only
  rcases h with h | h
  · simp [h]
  · cases hp : s.seq.paceTimer with
    | none => simp [hp] at h
    | some m =>
      split
      · simp [gapStarts, hp]
      · rfl

theorem endClaim_undue (ha : s.agenda.admission = false) (hw : s.warmRegain = false) :
    ∃ a : Agenda, a.admission = false ∧ endClaim s = s.setAgenda a := by
  have hr (a : Agenda) : regainTest (s.setAgenda a) = s.setAgenda a := regainTest_idle hw
  unfold endClaim
  simp only [ha, Bool.false_and, Bool.false_eq_true, if_false, setAgenda_setAgenda, hr]
  split
  · exact ⟨_, rfl, rfl⟩
  · exact ⟨_, rfl, rfl⟩

/-- The end of an event at which starts wait, no admission pass is owed and no regain is to be tested only clears what is owed. -/
theorem finish_undue (hs : s.startsWait) (ha : s.agenda.admission = false) (hw : s.warmRegain = false) :
    finish s = s.setAgenda .none := by
  obtain ⟨a, hadm, he⟩ := endClaim_undue ha hw
  have ho := offerStart_waiting (s := s.setAgenda a) hs
  have hr : ∃ b, finishRounds 33 s = s.setAgenda b := by
    unfold finishRounds
    simp only [he, ho]
    split
    · exact ⟨_, if_neg fun e => Bool.false_ne_true (hadm.symm.trans e)⟩
    · exact ⟨a, rfl⟩
  obtain ⟨b, hb⟩ := hr
  rw [finish, hb, setAgenda_setAgenda]

/-! ### The counts of a plan run (R60) -/

/-- How many entries a plan run has counted. -/
def RunCounts.total (k : RunCounts) : Nat := k.queued + k.parked + k.skipped

theorem planRunEntry_total (automatic : Bool) (s : State) (k : RunCounts) {i : Nat} (hi : i < s.seq.plan.length) :
    (planRunEntry automatic (s, k) i).2.total = k.total + 1 := by
  have he : s.seq.plan[i]? = some s.seq.plan[i] := List.getElem?_eq_getElem hi
  unfold planRunEntry
  dsimp only
  rw [he]
  dsimp only
  split
  · rfl
  · split
    · rfl
    · split
      · rfl
      · split <;> (simp only [RunCounts.total]; omega)

theorem planRunEntry_plan_length (automatic : Bool) (s : State) (k : RunCounts) (i : Nat) :
    (planRunEntry automatic (s, k) i).1.seq.plan.length = s.seq.plan.length := by
  have h : Part.plan.same s (planRunEntry automatic (s, k) i).1 := (planRunEntry_evolves automatic s k i).same .plan
  simp only [Part.same, Prod.mk.injEq] at h
  simpa using congrArg List.length h.2.2

/-- A plan run counts each entry once. -/
theorem planRunEntries_total (automatic : Bool) (l : List Nat) (s : State) (k : RunCounts)
    (hl : ∀ i ∈ l, i < s.seq.plan.length) : (l.foldl (planRunEntry automatic) (s, k)).2.total = k.total + l.length := by
  induction l generalizing s k with
  | nil => rfl
  | cons i l ih =>
    have hone := planRunEntry_total automatic s k (hl i (by simp))
    have hlen := planRunEntry_plan_length automatic s k i
    rw [List.foldl_cons]
    generalize planRunEntry automatic (s, k) i = a at hone hlen ⊢
    obtain ⟨v, k'⟩ := a
    rw [ih v k' fun j hj => hlen ▸ hl j (by simp [hj]), hone, List.length_cons]
    omega

theorem planRun_total (automatic : Bool) (s : State) : (planRun automatic s).2.total = s.seq.plan.length := by
  have h := planRunEntries_total automatic (List.range s.seq.plan.length) s { queued := 0, parked := 0, skipped := 0 }
    fun i hi => List.mem_range.mp hi
  rw [List.length_range] at h
  unfold planRun
  generalize (List.range s.seq.plan.length).foldl (planRunEntry automatic)
    (s, { queued := 0, parked := 0, skipped := 0 }) = x at h ⊢
  exact h.trans (Nat.zero_add _)

/-! ### START_RACK -/

/-- The answer to an accepted START_RACK. -/
def rackStarted (s : State) : State × Answer :=
  answerAfter .ok (State.runPayload · (planRun false (s.setDue false false)).2) (planRun false (s.setDue false false)).1

theorem startRack_accepted (h : s.leased p) (tag : Byte) (hn : s.isNormal = true) (hm : s.isSettled = true) :
    exec (.startRack p tag) s = .next (respond p tag (rackStarted s).2 (rackStarted s).1) :=
  next_leased h tag (by simp only [hn, hm]; rfl)

theorem startRack_refused (h : s.leased p) (tag : Byte) :
    (s.isNormal = false → exec (.startRack p tag) s = .next (respond p tag ⟨.holdupState, []⟩ s)) ∧
    (s.isNormal = true → s.isSettled = false → exec (.startRack p tag) s = .next (respond p tag ⟨.recovering, []⟩ s)) :=
  ⟨fun hn => next_leased h tag (by simp only [hn]; rfl), fun hn hm => next_leased h tag (by simp only [hn, hm]; rfl)⟩

/-- START_RACK counts every entry once and leaves no automatic run due. -/
theorem startRack_counts (h : s.leased p) (tag : Byte) (hn : s.isNormal = true) (hm : s.isSettled = true) :
    ∃ u q k x, exec (.startRack p tag) s =
      .next (respond p tag ⟨.ok, [byte q, byte k, byte x] ++ nat3 u.headroom⟩ u) ∧ q + k + x = s.seq.plan.length ∧
      u.seq.autoDue = false := by
  have hrun : Steady (s.setDue false false) (planRun false (s.setDue false false)).1 := planRun_steady false hn
  exact ⟨_, _, _, _, startRack_accepted h tag hn hm, planRun_total false (s.setDue false false),
    (hrun.trans (finish_steady_normal (hrun.isNormal.trans hn))).due⟩

/-- START_RACK whose run owes no more than what passes while starts wait. -/
theorem startRack_run (h : s.leased p) (tag : Byte) (hn : s.isNormal = true) (hm : s.isSettled = true) {v : State}
    {k : RunCounts} (hr : planRun false (s.setDue false false) = (v, k)) (hf : finish v = u) :
    exec (.startRack p tag) s = .next (respond p tag ⟨.ok, u.runPayload k⟩ u) := by
  rw [startRack_accepted h tag hn hm]
  unfold rackStarted
  rw [hr, ← hf]
  rfl

/-! ### A plan of one entry -/

/-- A plan run over one entry. -/
theorem planRun_single {e : PlanEntry} (hp : s.seq.plan = [e]) (automatic : Bool) : planRun automatic s =
    let a := planRunEntry automatic (s, { queued := 0, parked := 0, skipped := 0 }) 0
    (journalise .planRun none (some (a.2.queued + a.2.parked)) (some (if automatic then .automatic else .manual)) a.1, a.2) := by
  unfold planRun
  rw [hp]
  rfl

/-- An entry that fails its check is reported and skipped. -/
theorem planRunEntry_failing {e : PlanEntry} {i : Nat} (he : s.seq.plan[i]? = some e) (hc : e.code = .failing)
    (automatic : Bool) (k : RunCounts) : planRunEntry automatic (s, k) i =
      (journalise .planSkip (some (.position i)) none (some .badEntry) (reportEntry i s), { k with skipped := k.skipped + 1 }) := by
  unfold planRunEntry
  simp only [he, hc]
  rfl

/-- The entry of a tray that is not IDLE is skipped. -/
theorem planRunEntry_state {e : PlanEntry} {i : Nat} (he : s.seq.plan[i]? = some e) (hc : e.code ≠ .failing)
    (hst : (s.tray e.tray).state ≠ .idle) (automatic : Bool) (k : RunCounts) : planRunEntry automatic (s, k) i =
      (journalise .planSkip (some (.tray e.tray)) none (some .state) s, { k with skipped := k.skipped + 1 }) := by
  unfold planRunEntry
  simp only [he, beq_false_of_ne hc, Bool.false_eq_true, if_false, bne_iff_ne.mpr hst, if_true]

/-- The entry of an IDLE tray that is ineligible is skipped with the reason. -/
theorem planRunEntry_ineligible {e : PlanEntry} {i : Nat} {automatic : Bool} {why : Reason} (he : s.seq.plan[i]? = some e)
    (hc : e.code ≠ .failing) (hst : (s.tray e.tray).state = .idle) (hpass : (s.tray e.tray).failsCheck = false)
    (hw : planSkip automatic e.tray s = some why) (k : RunCounts) : planRunEntry automatic (s, k) i =
      (journalise .planSkip (some (.tray e.tray)) none (some why) s, { k with skipped := k.skipped + 1 }) := by
  unfold planRunEntry
  simp only [he, beq_false_of_ne hc, Bool.false_eq_true, if_false, hst, bne_self_eq_false, checkRead_passes hpass, hw]

/-- The entry of an IDLE tray that is eligible is queued or parked. -/
theorem planRunEntry_eligible {e : PlanEntry} {i : Nat} {automatic : Bool} (he : s.seq.plan[i]? = some e)
    (hc : e.code ≠ .failing) (hst : (s.tray e.tray).state = .idle) (hpass : (s.tray e.tray).failsCheck = false)
    (hw : planSkip automatic e.tray s = none) (k : RunCounts) : planRunEntry automatic (s, k) i =
      if s.fits ((s.tray e.tray).commitFor .queued (s.cfg e.tray).standing)
      then (move e.tray .queued (s.cfg e.tray).standing none s, { k with queued := k.queued + 1 })
      else (move e.tray .parked (s.cfg e.tray).standing none s, { k with parked := k.parked + 1 }) := by
  unfold planRunEntry
  simp only [he, beq_false_of_ne hc, Bool.false_eq_true, if_false, hst, bne_self_eq_false, checkRead_passes hpass, hw]
  cases hf : s.fits ((s.tray e.tray).commitFor .queued (s.cfg e.tray).standing) with
  | true =>
    simp only [queueOrPark, hf, if_true]
  | false =>
    simp only [queueOrPark, hf, Bool.false_eq_true, if_false]

/-! ### An IDLE tray queued or parked -/

/-- The state in which an IDLE tray's record is replaced: its over_cap mark noted cleared, where it stood. -/
def State.noted (n : TrayId) (st : TrayState) (s : State) : State :=
  if ((s.tray n).overCap && !st.keepsMarks) = true then overCapCleared n s else s

theorem noted_eq (n : TrayId) (st : TrayState) (s : State) :
    ∃ j a b, s.noted n st = { s with journal := j, portA := a, portB := b } := by
  unfold State.noted overCapCleared journalise
  split
  · exact ⟨_, _, _, rfl⟩
  · exact ⟨s.journal, s.portA, s.portB, rfl⟩

/-- An IDLE tray is in no collection that it could leave. -/
theorem moveBare_of_idle {st : TrayState} (hi : (s.tray n).state = .idle) (g : Nat) (c : Option FaultCause) :
    moveBare n st g c s = joinCollection n st ((s.noted n st).putTray n ((s.tray n).enter st g c)) := by
  obtain ⟨j, a, b, hj⟩ := noted_eq n st s
  have ht : (s.noted n st).tray n = s.tray n := by rw [hj]; rfl
  have hl : leaveCollection n (s.noted n st) = s.noted n st := by
    unfold leaveCollection
    rw [ht, hi]
  unfold moveBare
  change joinCollection n st ((leaveCollection n (s.noted n st)).putTray n
    (((leaveCollection n (s.noted n st)).tray n).enter st g c)) = _
  rw [hl, ht]

theorem parkBefore_putTray {r : Tray} (hc : r.effClass = (s.tray n).effClass) :
    (s.putTray n r).parkBefore = s.parkBefore := by
  have he (a : TrayId) : ((s.putTray n r).tray a).effClass = (s.tray a).effClass := by
    rw [putTray_tray]
    split
    · subst_vars; exact hc
    · rfl
  funext a b
  unfold State.parkBefore
  rw [he, he]
  rfl

/-- An IDLE tray that is queued joins the Start Queue's tail; nothing but a start opportunity is owed for it. -/
theorem move_queued_of_idle (hi : (s.tray n).state = .idle) (g : Nat) :
    let v := move n .queued g none s
    (∀ m, v.tray m = if m = n then (s.tray n).enter .queued g none else s.tray m) ∧ v.queue = s.queue ++ [n] ∧
      v.park = s.park ∧ v.agenda.admission = s.agenda.admission ∧ (s.startsWait → v.startsWait) := by
  have hq := enqueue_queue n (s.putTray n ((s.tray n).enter .queued g none))
  have hn : s.noted n .queued = s := by simp [State.noted, TrayState.keepsMarks]
  rw [move_queued_eq]
  refine ⟨moveBare_tray n .queued g none s, ?_⟩
  rw [moveBare_of_idle hi, hn]
  refine ⟨hq, ?_⟩
  unfold joinCollection enqueue
  dsimp only
  split
  · rename_i hc
    have hm : s.seq.paceMode = .cadence := by simpa using ((Bool.and_eq_true _ _).mp hc).1
    exact ⟨rfl, rfl, fun _ => Or.inl hm⟩
  · exact ⟨rfl, rfl, id⟩

/-- An IDLE tray that is parked joins the Park List in its order, and nothing is owed for it. -/
theorem move_parked_of_idle (hi : (s.tray n).state = .idle) (g : Nat) (hcodes : s.codesPass) :
    let v := move n .parked g none s
    (∀ m, v.tray m = if m = n then (s.tray n).enter .parked g none else s.tray m) ∧ v.queue = s.queue ∧
      v.park = insertBy s.parkBefore n s.park ∧ v.agenda.admission = s.agenda.admission ∧ v.seq = s.seq := by
  have htr := moveBare_tray n .parked g none s
  have hpass : (moveBare n .parked g none s).codesPass := fun m => by
    rw [htr]
    split
    · exact hcodes n
    · exact hcodes m
  obtain ⟨j, a, b, hj⟩ := noted_eq n .parked s
  rw [move_passes hpass]
  refine ⟨htr, ?_⟩
  rw [moveBare_of_idle hi, hj]
  refine ⟨rfl, congrArg (insertBy · n s.park) ?_, rfl, rfl⟩
  exact parkBefore_putTray (s := { s with journal := j, portA := a, portB := b }) rfl

theorem commitFor_queued (hl : (s.tray n).locked = false) (g : Nat) :
    (s.tray n).commitFor .queued g = max (s.cfg n).inrush g := by
  simp only [Tray.commitFor, hl, Bool.false_eq_true, if_false]
  rfl

/-- The reason for which START_RACK skips an IDLE tray whose configuration has been read. -/
theorem planSkip_manual (n : TrayId) (s : State) : planSkip false n s =
    if (s.tray n).locked = true then some .skipLocked
    else if s.zoneInLeak (s.cfg n) = true then some .inLeak
    else if (s.station (trayStation n)).presence ≠ .present then some .station
    else if (s.cfg n).standing = 0 then some .noGrant
    else none := by
  unfold planSkip
  simp only [Bool.false_and, Bool.false_eq_true, if_false, bne_iff_ne, beq_iff_eq]
  rfl

/-- START_RACK over one entry whose tray is IDLE and eligible. -/
theorem startRack_eligible (h : s.leased p) (tag : Byte) (hs : s.startsWait) (hn : s.isNormal = true)
    (hm : s.isSettled = true) (hp : s.seq.plan = [{ tray := n, code := .matching, reported := false }])
    (hi : (s.tray n).state = .idle) (hc : (s.tray n).code = .matching) (hl : (s.tray n).locked = false)
    (hz : s.zoneInLeak (s.cfg n) = false) (hst : (s.station (trayStation n)).presence = .present)
    (hg : (s.cfg n).standing ≠ 0) :
    let c := max (s.cfg n).inrush (s.cfg n).standing
    (c ≤ s.headroom →
      ∃ u, exec (.startRack p tag) s = .next (respond p tag ⟨.ok, [1, 0, 0] ++ nat3 u.headroom⟩ u) ∧
        (u.tray n).state = .queued ∧ (u.tray n).grant = (s.cfg n).standing ∧ (u.tray n).commitment = c ∧
        (u.tray n).revision = (s.tray n).revision + 1 ∧ u.queue = s.queue ++ [n] ∧ u.park = s.park ∧
        u.seq.autoDue = false ∧ (∀ t', t' ≠ n → u.tray t' = s.tray t')) ∧
    (s.headroom < c → s.codesPass →
      ∃ u, exec (.startRack p tag) s = .next (respond p tag ⟨.ok, [0, 1, 0] ++ nat3 u.headroom⟩ u) ∧
        (u.tray n).state = .parked ∧ (u.tray n).grant = (s.cfg n).standing ∧ (u.tray n).commitment = 0 ∧
        (u.tray n).revision = (s.tray n).revision + 1 ∧ u.queue = s.queue ∧ u.park = insertBy s.parkBefore n s.park ∧
        u.seq.autoDue = false ∧ (∀ t', t' ≠ n → u.tray t' = s.tray t')) := by
  intro c
  have hread : (s.tray n).failsCheck = false := by simp [Tray.failsCheck, hc]
  have hskip : planSkip false n (s.setDue false false) = none := by
    have e := planSkip_manual n (s.setDue false false)
    rwa [show ((s.setDue false false).tray n).locked = false from hl,
      show (s.setDue false false).zoneInLeak ((s.setDue false false).cfg n) = false from hz,
      show ((s.setDue false false).station (trayStation n)).presence = .present from hst,
      if_neg Bool.false_ne_true, if_neg Bool.false_ne_true, if_neg (by simp),
      if_neg (show ¬((s.setDue false false).cfg n).standing = 0 from hg)] at e
  have hcom : ((s.setDue false false).tray n).commitFor .queued ((s.setDue false false).cfg n).standing = c :=
    commitFor_queued hl _
  have hrun := planRun_single (s := s.setDue false false) hp false
  rw [planRunEntry_eligible (s := s.setDue false false) (i := 0)
    (e := { tray := n, code := .matching, reported := false }) (by rw [show (s.setDue false false).seq.plan = _ from hp]; rfl)
    (by simp) hi hread hskip, hcom] at hrun
  have hown : s.agenda.admission = false := by rw [h.1.1.2]; rfl
  have hsteady : (planRun false (s.setDue false false)).1.seq.autoDue = false := (planRun_steady false (s := s.setDue false false) hn).due
  have hwarm : (planRun false (s.setDue false false)).1.warmRegain = false :=
    warmRegain_normal ((planRun_steady false (s := s.setDue false false) hn).isNormal.trans hn)
  refine ⟨fun hfit => ?_, fun hfit hcodes => ?_⟩
  · have hf : (s.setDue false false).fits c = true := decide_eq_true hfit
    simp only [hf, if_true] at hrun
    obtain ⟨htr, hqueue, hpark, hadm, hwait⟩ := move_queued_of_idle (s := s.setDue false false) hi
      ((s.setDue false false).cfg n).standing
    rw [hrun] at hsteady hwarm
    generalize move n .queued ((s.setDue false false).cfg n).standing none (s.setDue false false) = v at *
    refine ⟨_, startRack_run h tag hn hm hrun (finish_undue (hwait hs) (hadm.trans hown) hwarm), ?_⟩
    have htn := htr n
    rw [if_pos rfl] at htn
    refine ⟨congrArg Tray.state htn, congrArg Tray.grant htn, (congrArg Tray.commitment htn).trans hcom,
      congrArg Tray.revision htn, hqueue, hpark, hsteady, fun m hne => (htr m).trans (if_neg hne)⟩
  · have hf : (s.setDue false false).fits c = false := decide_eq_false (Nat.not_le.mpr hfit)
    simp only [hf, Bool.false_eq_true, if_false] at hrun
    obtain ⟨htr, hqueue, hpark, hadm, hseq⟩ := move_parked_of_idle (s := s.setDue false false) hi
      ((s.setDue false false).cfg n).standing hcodes
    rw [hrun] at hsteady hwarm
    generalize move n .parked ((s.setDue false false).cfg n).standing none (s.setDue false false) = v at *
    have hwait : v.startsWait := by
      unfold State.startsWait
      rw [hseq]
      exact hs
    refine ⟨_, startRack_run h tag hn hm hrun (finish_undue hwait (hadm.trans hown) hwarm), ?_⟩
    have htn := htr n
    rw [if_pos rfl] at htn
    refine ⟨congrArg Tray.state htn, congrArg Tray.grant htn, congrArg Tray.commitment htn,
      congrArg Tray.revision htn, hqueue, hpark, hsteady, fun m hne => (htr m).trans (if_neg hne)⟩

/-! ### The entries that START_RACK skips -/

theorem reportEntries_agenda (s : State) : (reportEntries s).agenda = s.agenda :=
  (congrArg State.agenda (reportEntries_reported s).1).trans rfl

/-- START_RACK over one entry that is skipped. -/
def rackSkipped (p : Port) (tag : Byte) (s v : State) (subject : Subject) (why : Reason) : Prop :=
  let u := journalise .planRun none (some 0) (some .manual) (journalise .planSkip (some subject) none (some why) v)
  exec (.startRack p tag) s = .next (respond p tag ⟨.ok, [0, 0, 1] ++ nat3 u.headroom⟩ u)

theorem startRack_skipped {e : PlanEntry} {v : State} {subject : Subject} {why : Reason} (h : s.leased p) (tag : Byte)
    (hn : s.isNormal = true) (hm : s.isSettled = true) (hp : s.seq.plan = [e]) (hv : v.agenda = Agenda.none)
    (hr : planRunEntry false (s.setDue false false, { queued := 0, parked := 0, skipped := 0 }) 0 =
      (journalise .planSkip (some subject) none (some why) v, { queued := 0, parked := 0, skipped := 1 })) :
    rackSkipped p tag s v subject why := by
  have hrun := planRun_single (s := s.setDue false false) hp false
  rw [hr] at hrun
  exact startRack_run h tag hn hm hrun (finish_none hv)

/-- Settles O32: a plan run in NORMAL is steady and counts each entry; a run that owes no admission pass ends with its own effect. -/
theorem startRackTakesThePlan : Obligations.StartRackTakesThePlan := by
  refine ⟨fun s p tag h => ⟨(startRack_refused h tag).1, (startRack_refused h tag).2, fun hn hm =>
      ⟨startRack_counts h tag hn hm, fun hp => ?_⟩⟩,
    fun s p tag t h hs hn hm hp hi hc hl hz hst hg => startRack_eligible h tag hs hn hm hp hi hc hl hz hst hg,
    fun s p tag e h hn hm hp => ?_⟩
  · have hrun : planRun false (s.setDue false false) = (journalise .planRun none (some 0) (some .manual)
        (s.setDue false false), { queued := 0, parked := 0, skipped := 0 }) := by
      unfold planRun
      rw [show (s.setDue false false).seq.plan = [] from hp]
      rfl
    exact startRack_run h tag hn hm hrun (finish_none h.1.1.2)
  · have he : (s.setDue false false).seq.plan[0]? = some e := by rw [show (s.setDue false false).seq.plan = [e] from hp]; rfl
    have hown : (s.setDue false false).agenda = Agenda.none := h.1.1.2
    dsimp only
    split
    · rename_i hc
      have hrep : reportEntry 0 (s.setDue false false) = reportEntries (s.setDue false false) := by
        unfold reportEntries
        rw [show (s.setDue false false).seq.plan = [e] from hp]
        rfl
      refine ⟨reportEntries (s.setDue false false), reportEntries_reported _, ?_⟩
      refine startRack_skipped h tag hn hm hp ((reportEntries_agenda _).trans hown) ?_
      rw [planRunEntry_failing he hc, hrep]
    · rename_i hc
      split
      · rename_i hst
        exact startRack_skipped h tag hn hm hp hown (planRunEntry_state he hc hst ..)
      · rename_i hst
        rw [not_not] at hst
        intro hread
        have skip {why : Reason} (hw : planSkip false e.tray (s.setDue false false) = some why) :=
          startRack_skipped h tag hn hm hp hown (planRunEntry_ineligible he hc hst hread hw _)
        have hman := planSkip_manual e.tray (s.setDue false false)
        split
        · rename_i h1
          exact skip (hman.trans (if_pos h1))
        · rename_i h1
          have hman := hman.trans (if_neg h1)
          split
          · rename_i h2
            exact skip (hman.trans (if_pos h2))
          · rename_i h2
            have hman := hman.trans (if_neg h2)
            split
            · rename_i h3
              exact skip (hman.trans (if_pos h3))
            · rename_i h3
              exact fun h4 => skip ((hman.trans (if_neg h3)).trans (if_pos h4))

end Sys2Proof.Machine
end

section
/-! SUPPORT. The two ways a reset ends, field by field: the dark rack of a POWER_ON, and the rack that a warm restart adopts when
every code of the image is good (R153, R155, R160, R161). -/

namespace Sys2Proof.Machine

variable {s t u : State} {n : TrayId} {z : ZoneId}

/-! ### The events that end a reset -/

theorem endResetIfDue_due (h : s.sup.resetCanEnd = true) : endResetIfDue s = endReset s := if_pos h

/-- The event that ends a reset changes the pins and then ends it. -/
theorem exec_resetEnds {c : Instr} (h : s.resetEndsAt c) : ∃ u : Supply, u.pfailAsserted = s.sup.pfailAsserted ∧
    exec c s = .next (endReset { s with sup := u }) := by
  obtain ⟨hheld, hv, hc, ⟨rfl, hd, hr⟩ | ⟨rfl, hd, hr⟩⟩ := h
  · refine ⟨{ s.sup with startDelay := none }, rfl, ?_⟩
    show Host.Outcome.next (startDelayExpired s) = _
    unfold startDelayExpired
    rw [if_pos hd, endResetIfDue_due]
    simp [Supply.resetCanEnd, hheld, hv, hc, hr]
  · refine ⟨{ s.sup with resetAsserted := false }, rfl, ?_⟩
    show Host.Outcome.next (resetDeasserted s) = _
    unfold resetDeasserted
    rw [if_pos hr, endResetIfDue_due]
    simp [Supply.resetCanEnd, hheld, hv, hc, hd]

/-! ### The end of a POWER_ON -/

theorem powerOnStart_hup (s : State) : (powerOnStart s).hup = if s.sup.pfailAsserted
    then { (loadedCore s).hup with state := .dark, cold := false }
    else { (loadedCore s).hup with state := .regain, cold := true, qualTimer := some s.loads.qualification } := by
  unfold powerOnStart
  rw [beginService_eq]
  rfl

theorem loadedCore_station (s : State) (a : StationId) : (loadedCore s).station a = .fresh := by
  simp [State.station, loadedCore, State.load, State.fresh]

/-- What a POWER_ON takes from the core as loaded: all but the holdup record, the reset record and the first poll. -/
structure LoadedAs (s u : State) : Prop where
  trays : u.trays = (loadedCore s).trays
  leak : u.leak = (loadedCore s).leak
  stations : u.link.stations = (loadedCore s).link.stations
  acct : u.acct = (loadedCore s).acct
  seq : u.seq = (loadedCore s).seq
  port : ∀ p, u.port p = (loadedCore s).port p
  held : u.sup.held = false
  journal : u.journal = (loadedCore s).journal
  trap : u.trap = (loadedCore s).trap
  hold : u.hold = { s.hold with adopted := 0, restored := 0, result := s.store.result }
  poll : u.link.outstanding.map Poll.address = some 32
  timer : u.sense.timer = some s.loads.interval

theorem powerOnStart_loadedAs (s : State) : LoadedAs s (powerOnStart s) := by
  rw [powerOnStart_eq, beginService_eq]
  exact ⟨rfl, rfl, rfl, rfl, rfl, fun p => by cases p <;> rfl, rfl, rfl, rfl, rfl, rfl, rfl⟩

/-- Settles O54: the core is the image as loaded but for the holdup record, the counts and what begins with the first round. -/
theorem powerOnBeginsADarkRack : Obligations.PowerOnBeginsADarkRack := by
  intro s c h hcause
  obtain ⟨pins, hpins, hexec⟩ := exec_resetEnds h
  have hend : endReset { s with sup := pins } = powerOnStart { s with sup := pins } := by
    unfold endReset
    rw [show ({ s with sup := pins } : State).hold.cause = .powerOn from hcause]
  have hl := powerOnStart_loadedAs { s with sup := pins }
  have hd := powerOnStart_dormant { s with sup := pins }
  have hh := powerOnStart_hup { s with sup := pins }
  rw [hend] at hexec
  generalize powerOnStart { s with sup := pins } = u at *
  rw [show ({ s with sup := pins } : State).sup.pfailAsserted = s.sup.pfailAsserted from hpins] at hh
  refine ⟨u, hexec, hl.held, fun t => ?_, hd.queue, hd.park, hd.slots, ?_, ?_, ?_, fun z => ?_, fun a => ?_, hl.acct, fun hp => ?_,
    fun hp => ?_, fun p => ?_, hl.poll, hl.timer, ?_, ?_, ?_, ?_, ?_, ?_⟩
  · rw [tray_congr hl.trays, loadedCore_tray]
    rfl
  · rw [hl.journal]
    rfl
  · rw [hl.trap]
    rfl
  · rw [hl.seq]
    show ((s.loads.plan.map _).map _) = _
    rw [List.map_map]
    exact List.map_id _
  · rw [zone_congr hl.leak, loadedCore_zone]
    exact ⟨rfl, rfl, rfl⟩
  · have : u.station a = (loadedCore { s with sup := pins }).station a := by unfold State.station; rw [hl.stations]
    rw [this, loadedCore_station]
    rfl
  · rw [hh, hp]
    exact ⟨rfl, rfl, rfl⟩
  · rw [hh, hp]
    exact ⟨rfl, rfl, rfl⟩
  · rw [hl.port]
    cases p <;> exact ⟨rfl, rfl, rfl⟩
  all_goals rw [hl.hold]
  show s.store.result = _
  unfold Store.result
  cases s.store.image <;> rfl

/-! ### The adoption while every code passes -/

theorem adopt_passes (h : s.codesPass) (n : TrayId) :
    adopt s n = if s.hold.enable[n] then s.putTray n (s.tray n).adoptedNow else s := by
  rw [adopt_eq, checkRead_passes (h n)]

theorem putTray_codesPass {r : Tray} (h : s.codesPass) (hr : r.failsCheck = false) : (s.putTray n r).codesPass := fun k => by
  rw [putTray_tray]
  split
  · exact hr
  · exact h k

theorem adopt_codesPass (h : s.codesPass) (n : TrayId) : (adopt s n).codesPass := by
  rw [adopt_passes h]
  split
  · exact putTray_codesPass h (h n)
  · exact h

theorem adopt_keepsEnable (h : s.codesPass) (n k : TrayId) : (adopt s n).hold.enable[k] = s.hold.enable[k] := by
  rw [adopt_passes h]
  split
  · rename_i he
    by_cases hk : k = n
    · subst hk
      rw [putTray_enable_self, he]
      rfl
    · exact putTray_enable_ne hk _ _
  · rfl

/-- The trays found with their latch on are adopted. -/
theorem adoptAll_tray (h : s.codesPass) (l : List TrayId) (hl : l.Nodup) (k : TrayId) : (l.foldl adopt s).tray k =
    if k ∈ l ∧ s.hold.enable[k] = true then (s.tray k).adoptedNow else s.tray k := by
  induction l generalizing s with
  | nil => simp
  | cons n l ih =>
    obtain ⟨hn, hl⟩ := List.nodup_cons.mp hl
    rw [List.foldl_cons, ih (adopt_codesPass h n) hl, adopt_keepsEnable h]
    by_cases hk : k = n
    · subst hk
      simp only [hn, false_and, if_false, List.mem_cons, true_or, true_and, adopt_passes h]
      split
      · exact putTray_tray_self ..
      · rfl
    · have hne : (adopt s n).tray k = s.tray k := by
        rw [adopt_passes h]
        split
        · rw [putTray_tray, if_neg hk]
        · rfl
      simp only [List.mem_cons, hk, false_or, hne]

theorem adoptAll_codesPass (h : s.codesPass) (l : List TrayId) : (l.foldl adopt s).codesPass := by
  induction l generalizing s with
  | nil => exact h
  | cons n l ih => exact ih (adopt_codesPass h n)

/-! ### The restored leaks while every code passes -/

/-- The record leaves for ISOLATED when its zone enters LEAK. -/
def Tray.leavesAt (r : Tray) (z : ZoneId) : Bool := r.inZone z && r.state.isolable

/-- The record of a tray that a LEAK entry isolates. -/
def Tray.isolatedNow (r : Tray) : Tray := r.enter .isolated 0 none

theorem isolate_tray (z : ZoneId) (n k : TrayId) (s : State) :
    (isolate z n s).tray k = if k = n then (s.tray n).isolatedNow else s.tray k := moveBare_tray n .isolated 0 none s k

theorem isolateIfInZone_passes (h : s.codesPass) (z : ZoneId) (n : TrayId) :
    isolateIfInZone z s n = if (s.tray n).leavesAt z = true then isolate z n s else s := by
  unfold isolateIfInZone
  rw [checkReadIn_passes (h n)]
  rfl

theorem isolateIfInZone_tray (h : s.codesPass) (z : ZoneId) (n k : TrayId) : (isolateIfInZone z s n).tray k =
    if k = n ∧ (s.tray k).leavesAt z = true then (s.tray k).isolatedNow else s.tray k := by
  rw [isolateIfInZone_passes h]
  by_cases hl : (s.tray n).leavesAt z = true
  · rw [if_pos hl, isolate_tray]
    by_cases hk : k = n
    · subst hk
      rw [if_pos rfl, if_pos ⟨rfl, hl⟩]
    · rw [if_neg hk, if_neg fun e => hk e.1]
  · rw [if_neg hl, if_neg]
    rintro ⟨rfl, e⟩
    exact hl e

theorem isolateIfInZone_codesPass (h : s.codesPass) (z : ZoneId) (n : TrayId) : (isolateIfInZone z s n).codesPass := fun k => by
  rw [isolateIfInZone_tray h]
  split
  · exact h k
  · exact h k

theorem isolateAll_tray (h : s.codesPass) (z : ZoneId) (l : List TrayId) (hl : l.Nodup) (k : TrayId) :
    (l.foldl (isolateIfInZone z) s).tray k =
      if k ∈ l ∧ (s.tray k).leavesAt z = true then (s.tray k).isolatedNow else s.tray k := by
  induction l generalizing s with
  | nil => simp
  | cons n l ih =>
    obtain ⟨hn, hl⟩ := List.nodup_cons.mp hl
    rw [List.foldl_cons, ih (isolateIfInZone_codesPass h z n) hl, isolateIfInZone_tray h]
    by_cases hk : k = n
    · subst hk
      simp only [hn, false_and, if_false, List.mem_cons, true_or, true_and]
    · simp only [hk, false_and, if_false, List.mem_cons, false_or]

theorem isolateAll_codesPass (h : s.codesPass) (z : ZoneId) (l : List TrayId) :
    (l.foldl (isolateIfInZone z) s).codesPass := by
  induction l generalizing s with
  | nil => exact h
  | cons n l ih => exact ih (isolateIfInZone_codesPass h z n)

theorem restoreLeak_passes (h : s.codesPass) (z : ZoneId) : (∀ k, (restoreLeak s z).tray k =
    if (s.hold.leakLatch[z] && (s.tray k).leavesAt z) = true then (s.tray k).isolatedNow else s.tray k) ∧
    (restoreLeak s z).codesPass := by
  unfold restoreLeak
  split
  · rename_i hz
    generalize ({ s.zone z with state := .leak, wetCount := 0, lastClass := none } : Zone) = r
    have hv : (s.setZone z r).codesPass := fun n => h n
    have ht (k : TrayId) : (s.setZone z r).tray k = s.tray k := rfl
    generalize s.setZone z r = v at hv ht ⊢
    refine ⟨fun k => ?_, isolateAll_codesPass hv z _⟩
    rw [isolateAll_tray hv z _ nodup_allTrays, ht]
    simp only [mem_allTrays, hz, true_and, Bool.true_and]
  · rename_i hz
    exact ⟨fun k => (if_neg fun e => hz ((Bool.and_eq_true _ _).mp e).1).symm, h⟩

/-- A zone of the list whose leak latch is set takes the record to ISOLATED. -/
def State.leavesFor (s : State) (l : List ZoneId) (r : Tray) : Bool :=
  l.any fun z => s.hold.leakLatch[z] && r.leavesAt z

theorem leavesFor_isolatedNow (s : State) (l : List ZoneId) (r : Tray) : s.leavesFor l r.isolatedNow = false := by
  have h (z : ZoneId) : r.isolatedNow.leavesAt z = false := Bool.and_false _
  simp [State.leavesFor, h]

theorem restoreAll_tray (h : s.codesPass) (l : List ZoneId) (k : TrayId) : (l.foldl restoreLeak s).tray k =
    if s.leavesFor l (s.tray k) = true then (s.tray k).isolatedNow else s.tray k := by
  induction l generalizing s with
  | nil => rfl
  | cons z l ih =>
    have hlatch (r : Tray) : (restoreLeak s z).leavesFor l r = s.leavesFor l r := by
      unfold State.leavesFor
      rw [(restoreLeak_hold s z).2]
    have hcons : s.leavesFor (z :: l) (s.tray k) =
        ((s.hold.leakLatch[z] && (s.tray k).leavesAt z) || s.leavesFor l (s.tray k)) := rfl
    rw [List.foldl_cons, ih (restoreLeak_passes h z).2, (restoreLeak_passes h z).1, hlatch, hcons]
    cases hz : s.hold.leakLatch[z] && (s.tray k).leavesAt z
    · rfl
    · simp only [if_true, leavesFor_isolatedNow, Bool.false_eq_true, if_false, Bool.true_or]

/-! ### The warm restart while every code passes -/

theorem warmLoaded_codesPass (h : ∀ t : TrayId, (s.loads.trays[t]).2 = .matching) : (warmLoaded s).codesPass := fun n => by
  show ((loadedCore s).tray n).failsCheck = false
  rw [loadedCore_tray, h]
  rfl

/-- The record of a tray as the adoption leaves it. -/
def State.adopts (s : State) (k : TrayId) : Tray :=
  if s.hold.enable[k] = true then (Tray.fresh (s.loads.trays[k]).1 .matching).adoptedNow
  else Tray.fresh (s.loads.trays[k]).1 .matching

theorem warmAdopted_passes (h : ∀ t : TrayId, (s.loads.trays[t]).2 = .matching) :
    (∀ k, (warmAdopted s).tray k = s.adopts k) ∧ (warmAdopted s).codesPass := by
  have hc := warmLoaded_codesPass h
  unfold warmAdopted
  refine ⟨fun k => ?_, adoptAll_codesPass hc _⟩
  have hk : (warmLoaded s).tray k = Tray.fresh (s.loads.trays[k]).1 .matching := by
    show (loadedCore s).tray k = _
    rw [loadedCore_tray, h]
  rw [adoptAll_tray hc _ nodup_allTrays, hk]
  simp only [mem_allTrays, true_and]
  rfl

/-- The trays of a warm restart: adopted when found on, and isolated by the restored leaks (R160). -/
theorem warmLeaks_tray (h : ∀ t : TrayId, (s.loads.trays[t]).2 = .matching) (k : TrayId) : (warmLeaks s).tray k =
    if s.leavesFor allZones (s.adopts k) = true then (s.adopts k).isolatedNow else s.adopts k := by
  have ha := warmAdopted_passes h
  have hl (l : List ZoneId) (r : Tray) : (warmAdopted s).leavesFor l r = s.leavesFor l r := by
    unfold State.leavesFor
    rw [(warmAdopted_valves s).2]
  unfold warmLeaks
  rw [restoreAll_tray ha.2, ha.1, hl]

/-- An unlocked IDLE or RUN record leaves for ISOLATED when its zone's leak latch is set. -/
theorem leavesFor_iff {r : Tray} (hl : r.locked = false) (hs : r.state.isolable = true) :
    s.leavesFor allZones r = true ↔ ∃ z : ZoneId, r.cfg.zone = some z ∧ s.hold.leakLatch[z] = true := by
  simp only [State.leavesFor, List.any_eq_true, mem_allZones, true_and, Tray.leavesAt, Tray.inZone, hl, hs, Bool.false_or,
    Bool.and_true, Bool.and_eq_true, beq_iff_eq]
  exact exists_congr fun z => and_comm

theorem adopts_isolable (s : State) (k : TrayId) : (s.adopts k).locked = false ∧ (s.adopts k).state.isolable = true ∧
    (s.adopts k).cfg = (s.loads.trays[k]).1 := by
  unfold State.adopts
  split <;> exact ⟨rfl, rfl, rfl⟩

/-! ### The collections and the holdup state of a warm restart -/

/-- With no tray QUEUED, INRUSH or PARKED the collections are empty. -/
theorem collections_empty (h : s.collectionsAgree)
    (hs : ∀ n, (s.tray n).state ≠ .queued ∧ (s.tray n).state ≠ .parked ∧ (s.tray n).state ≠ .inrush) :
    s.queue = [] ∧ s.park = [] ∧ ∀ j : SlotId, s.seq.slots[j] = none := by
  obtain ⟨_, _, hq, hp, hj, _⟩ := h
  refine ⟨List.eq_nil_iff_forall_not_mem.mpr fun n hn => (hs n).1 ((hq n).mp hn),
    List.eq_nil_iff_forall_not_mem.mpr fun n hn => (hs n).2.1 ((hp n).mp hn), fun j => ?_⟩
  cases e : s.seq.slots[j] with
  | none => rfl
  | some w => exact absurd ((hj w.tray).mp ⟨j, by rw [e]; rfl⟩) (hs w.tray).2.2

/-- Neither the adoption nor the restored leaks write the holdup record or the automatic run due mark. -/
theorem warmLeaks_holdup (s : State) :
    (warmLeaks s).hup = (loadedCore s).hup ∧ (warmLeaks s).seq.autoDue = (loadedCore s).seq.autoDue := by
  have ha (v : State) (n : TrayId) : (adopt v n).hup = v.hup ∧ (adopt v n).seq.autoDue = v.seq.autoDue := by
    rw [adopt_eq]
    split
    · exact ⟨(checkRead_sinks n v).hup, (checkRead_sinks n v).due⟩
    · exact ⟨rfl, rfl⟩
  have hz (v : State) (z : ZoneId) : (restoreLeak v z).hup = v.hup ∧ (restoreLeak v z).seq.autoDue = v.seq.autoDue := by
    unfold restoreLeak
    split
    · have h (w : State) : Sinks w (allTrays.foldl (isolateIfInZone z) w) := .foldl (isolateIfInZone_sinks z) allTrays w
      exact ⟨(h _).hup, (h _).due⟩
    · exact ⟨rfl, rfl⟩
  have fold {α : Type} {f : State → α → State} (hf : ∀ v a, (f v a).hup = v.hup ∧ (f v a).seq.autoDue = v.seq.autoDue)
      (l : List α) (v : State) : (l.foldl f v).hup = v.hup ∧ (l.foldl f v).seq.autoDue = v.seq.autoDue := by
    induction l generalizing v with
    | nil => exact ⟨rfl, rfl⟩
    | cons a l ih => exact ⟨(ih _).1.trans (hf v a).1, (ih _).2.trans (hf v a).2⟩
  obtain ⟨h1, h2⟩ := fold ha allTrays (warmLoaded s)
  obtain ⟨h3, h4⟩ := fold hz allZones (warmAdopted s)
  unfold warmLeaks
  rw [h3, h4]
  unfold warmAdopted
  rw [h1, h2]
  exact ⟨rfl, rfl⟩

theorem warmLeaks_hup (s : State) : (warmLeaks s).hup = (loadedCore s).hup := (warmLeaks_holdup s).1

theorem runCount_eq_zero (s : State) : s.runCount = 0 ↔ ∀ n, (s.tray n).state ≠ .run := by
  simp [State.runCount, List.filter_eq_nil_iff, mem_allTrays]

/-- The holdup state that a warm restart chooses. -/
theorem chooseHoldup_cases (s : State) : (s.sup.pfailAsserted = false → (chooseHoldup s).hup = { s.hup with state := .normal }) ∧
    (s.sup.pfailAsserted = true → s.runCount = 0 → (chooseHoldup s).hup = { s.hup with state := .dark }) ∧
    (s.sup.pfailAsserted = true → s.runCount ≠ 0 →
      (chooseHoldup s).hup = (beginEpisode (s.setHup { s.hup with state := .holdup })).hup) := by
  unfold chooseHoldup
  refine ⟨fun h => ?_, fun h hr => ?_, fun h hr => ?_⟩
  · rw [h]
    rfl
  · rw [h, Bool.not_true, if_neg Bool.false_ne_true, if_pos hr]
    rfl
  · rw [h, Bool.not_true, if_neg Bool.false_ne_true, if_neg hr]

theorem usableFor_zero (st : HoldupState) (cold : Bool) : usableFor st cold 0 0 = 0 := by
  cases st <;> cases cold <;> rfl

/-! ### The trays of a warm restart -/

/-- A tray of a zone whose leak latch is set. -/
def State.inLatchedZone (s : State) (c : TrayConfig) : Prop := ∃ z : ZoneId, c.zone = some z ∧ s.hold.leakLatch[z] = true

theorem warmLeaks_leaking (h : ∀ t : TrayId, (s.loads.trays[t]).2 = .matching) (hz : s.inLatchedZone (s.loads.trays[n]).1) :
    (warmLeaks s).tray n = { Tray.fresh (s.loads.trays[n]).1 .matching with state := .isolated, revision := 1 } := by
  obtain ⟨hl, hs, hc⟩ := adopts_isolable s n
  rw [warmLeaks_tray h, if_pos ((leavesFor_iff hl hs).mpr (hc ▸ hz))]
  unfold State.adopts
  split <;> rfl

theorem warmLeaks_dry (h : ∀ t : TrayId, (s.loads.trays[t]).2 = .matching) (hz : ¬s.inLatchedZone (s.loads.trays[n]).1) :
    (warmLeaks s).tray n = s.adopts n := by
  obtain ⟨hl, hs, hc⟩ := adopts_isolable s n
  rw [warmLeaks_tray h, if_neg fun e => hz (hc ▸ (leavesFor_iff hl hs).mp e)]

/-- The records and the enable latches of a warm restart (R160). -/
theorem warmStart_tray (h : ∀ t : TrayId, (s.loads.trays[t]).2 = .matching) (t : TrayId) :
    let c := (s.loads.trays[t]).1
    (s.inLatchedZone c → (warmStart s).tray t = { Tray.fresh c .matching with state := .isolated, revision := 1 } ∧
      (warmStart s).hold.enable[t] = false) ∧
    (¬s.inLatchedZone c → s.hold.enable[t] = true → (warmStart s).hold.enable[t] = true ∧
      (warmStart s).tray t = { Tray.fresh c .matching with
        state := .run, grant := c.standing, commitment := c.standing, adopted := true }) ∧
    (¬s.inLatchedZone c → s.hold.enable[t] = false → (warmStart s).tray t = Tray.fresh c .matching ∧
      (warmStart s).hold.enable[t] = false) := by
  intro c
  have hu := warmStart_setUp s
  have ht : (warmStart s).tray t = (warmLeaks s).tray t := tray_congr hu.trays t
  have he : (warmStart s).hold.enable[t] = ((warmLeaks s).tray t).state.enabled := by
    rw [hu.enable]
    exact warmLeaks_enablesTell s t
  refine ⟨fun hz => ?_, fun hz hon => ?_, fun hz hoff => ?_⟩
  · rw [he, ht, warmLeaks_leaking h hz]
    exact ⟨rfl, rfl⟩
  · have ha : s.adopts t = (Tray.fresh c .matching).adoptedNow := if_pos hon
    rw [he, ht, warmLeaks_dry h hz, ha]
    exact ⟨rfl, rfl⟩
  · have ha : s.adopts t = Tray.fresh c .matching := if_neg (by rw [hoff]; exact Bool.false_ne_true)
    rw [he, ht, warmLeaks_dry h hz, ha]
    exact ⟨rfl, rfl⟩

theorem warmLeaks_state (h : ∀ t : TrayId, (s.loads.trays[t]).2 = .matching) (n : TrayId) :
    ((warmLeaks s).tray n).state ≠ .queued ∧ ((warmLeaks s).tray n).state ≠ .parked ∧
      ((warmLeaks s).tray n).state ≠ .inrush := by
  rw [warmLeaks_tray h]
  split
  · exact ⟨by simp [Tray.isolatedNow, Tray.enter], by simp [Tray.isolatedNow, Tray.enter],
      by simp [Tray.isolatedNow, Tray.enter]⟩
  · unfold State.adopts
    split <;> exact ⟨nofun, nofun, nofun⟩

/-- The holdup state of a warm restart (R161). -/
theorem warmStart_hup (s : State) : (s.sup.pfailAsserted = false → (warmStart s).hup.state = .normal) ∧
    (s.sup.pfailAsserted = true → (∃ t, ((warmStart s).tray t).state = .run) →
      (warmStart s).hup.state = .holdup ∧ (warmStart s).hup.stage = some .one ∧
      (warmStart s).hup.total = s.loads.s1 + s.loads.s2 + s.loads.s3 ∧ (warmStart s).hup.episodes = 1) ∧
    (s.sup.pfailAsserted = true → (∀ t, ((warmStart s).tray t).state ≠ .run) → (warmStart s).hup.state = .dark) := by
  have hu := warmStart_setUp s
  have ht (t : TrayId) : (warmStart s).tray t = (warmLeaks s).tray t := tray_congr hu.trays t
  have hp : (warmLeaks s).sup.pfailAsserted = s.sup.pfailAsserted := by
    rw [(warmLeaks_units s).2.1]
    rfl
  obtain ⟨hnormal, hdark, hholdup⟩ := chooseHoldup_cases (warmLeaks s)
  rw [hu.hup]
  simp only [ht]
  refine ⟨fun h => ?_, fun h hr => ?_, fun h hr => ?_⟩
  · rw [hnormal (hp.trans h)]
  · obtain ⟨t, hr⟩ := hr
    rw [hholdup (hp.trans h) fun e => (runCount_eq_zero _).mp e t hr]
    unfold beginEpisode
    dsimp only [State.setHup]
    rw [warmLeaks_hup]
    exact ⟨rfl, rfl, rfl, rfl⟩
  · rw [hdark (hp.trans h) ((runCount_eq_zero _).mpr hr)]

/-- The account, the journal, the first poll and the census timer of a warm restart. -/
theorem warmStart_begins (s : State) : (warmStart s).acct.mode = .recovering ∧ (warmStart s).acct.usable = 0 ∧
    (warmStart s).journal.entries = [] ∧ (warmStart s).link.outstanding.map Poll.address = some 32 ∧
    (warmStart s).sense.timer = some s.loads.interval ∧ (warmStart s).hold.closed = s.hold.closed ∧
    (warmStart s).hold.leakLatch = s.hold.leakLatch := by
  have hu := warmStart_setUp s
  obtain ⟨_, _, hsense, hshelf, hbattery, hmode⟩ := warmLeaks_units s
  obtain ⟨hclosed, hlatch⟩ := warmLeaks_valves s
  generalize warmStart s = u at hu ⊢
  generalize warmLeaks s = v at hu hsense hshelf hbattery hmode hclosed hlatch
  refine ⟨?_, ?_, ?_, hu.poll, ?_, hu.closed.trans hclosed, hu.leakLatch.trans hlatch⟩
  · rw [hu.acct]
    exact hmode
  · rw [hu.acct, hshelf, hbattery]
    exact usableFor_zero ..
  · rw [hu.journal]
    rfl
  · rw [hu.timer, hsense]
    rfl

/-- Nothing is queued, parked or starting after a warm restart with every code good. -/
theorem warmStart_collections (h : ∀ t : TrayId, (s.loads.trays[t]).2 = .matching) :
    (warmStart s).queue = [] ∧ (warmStart s).park = [] ∧ ∀ j : SlotId, (warmStart s).seq.slots[j] = none := by
  have hu := warmStart_setUp s
  obtain ⟨hqueue, hpark, hslots⟩ := collections_empty (warmLeaks_collectionsAgree s) (warmLeaks_state h)
  generalize warmStart s = u at hu ⊢
  refine ⟨hu.queue.trans hqueue, hu.park.trans hpark, fun j => ?_⟩
  rw [hu.seq]
  exact hslots j

theorem warmStart_zones (s : State) (z : ZoneId) :
    ((warmStart s).zone z).state = (if s.hold.leakLatch[z] = true then .leak else .dry) ∧
      ((warmStart s).zone z).wetCount = 0 ∧ ((warmStart s).zone z).lastClass = none := by
  rw [warmStart_zone]
  exact ⟨rfl, rfl, rfl⟩

/-- Settles O55: the adoption and the restored leaks, tray by tray, and the set-up that follows them. -/
theorem warmRestartAdoptsTheRack : Obligations.WarmRestartAdoptsTheRack := by
  intro s e dip pin h hcause img hcodes
  obtain ⟨pins, hpins, hexec⟩ := exec_resetEnds h
  have hend : endReset { s with sup := pins } = warmStart { s with sup := pins } := by
    unfold endReset
    rw [show ({ s with sup := pins } : State).hold.cause = .warm dip pin from hcause]
  rw [hend] at hexec
  have htr := warmStart_tray (s := { s with sup := pins }) hcodes
  have hhup := warmStart_hup { s with sup := pins }
  have hzone := warmStart_zones { s with sup := pins }
  have hheld := warmStart_held { s with sup := pins }
  obtain ⟨hmode, husable, hjournal, hpoll, htimer, hclosed, hlatch⟩ := warmStart_begins { s with sup := pins }
  obtain ⟨hqueue, hpark, hslots⟩ := warmStart_collections (s := { s with sup := pins }) hcodes
  rw [show ({ s with sup := pins } : State).sup.pfailAsserted = s.sup.pfailAsserted from hpins] at hhup
  generalize warmStart { s with sup := pins } = u at *
  exact ⟨u, hexec, hheld, hmode, hjournal, hqueue, hpark, hslots, htr, hzone, hclosed, hlatch, hhup.1, hhup.2.1, hhup.2.2,
    husable, hpoll, htimer⟩

end Sys2Proof.Machine
end

section
/-! SUPPORT. A sound rack, and the transitions of the Holdup Controller that keep it: each replaces the holdup record and usable
capacity together, and leaves committed within it (R29, R30, R73, R76, R84, R89). -/

namespace Sys2Proof.Machine

variable {s t u : State}

/-! ### A sound rack -/

/-- The Holdup Controller's own record is one of its states, and usable capacity is what that state chooses. -/
structure State.poised (s : State) : Prop where
  stage : s.hup.stage.isSome = s.onBattery
  tick : s.hup.stageTick.isSome = s.onBattery
  cold : s.hup.cold = true → s.hup.state = .regain
  qual : s.hup.qualTimer.isSome = true → s.hup.state = .regain
  qualified : s.hup.qualified = true → s.warmRegain = true
  due : s.seq.autoDue = true → s.isNormal = true
  usable : s.usableAgrees

/-- The parts of a sound rack, the records as the holdup state allows them. -/
structure State.sound (s : State) : Prop where
  table : s.tableSound
  standing : s.standing
  poised : s.poised
  budget : s.budgetKept

theorem rackSound_iff (s : State) : s.rackSound ↔ s.sound := by
  constructor
  · rintro ⟨hlaw, hsum, hcol, ⟨h1, h2, h3, h4, h5, h6, hst⟩, husable, hcover, hbudget⟩
    exact ⟨⟨hlaw, hsum, hcol⟩, fun n => ⟨(hst n).1, (hst n).2, hcover n⟩, ⟨h1, h2, h3, h4, h5, h6, husable⟩, hbudget⟩
  · rintro ⟨⟨hlaw, hsum, hcol⟩, hst, ⟨h1, h2, h3, h4, h5, h6, husable⟩, hbudget⟩
    exact ⟨hlaw, hsum, hcol, ⟨h1, h2, h3, h4, h5, h6, fun n => ⟨(hst n).started, (hst n).dark⟩⟩, husable,
      fun n => (hst n).cover, hbudget⟩

/-- The Holdup Controller's part of a sound rack is read from its record, the automatic run due mark and the capacities. -/
theorem poised_congr (hh : u.hup = s.hup) (hd : u.seq.autoDue = s.seq.autoDue) (hu : u.usableAgrees) (hs : s.poised) :
    u.poised := by
  have hn : u.isNormal = s.isNormal := by unfold State.isNormal; rw [hh]
  have hb : u.onBattery = s.onBattery := by unfold State.onBattery; rw [hh]
  have hw : u.warmRegain = s.warmRegain := by unfold State.warmRegain; rw [hh]
  refine ⟨?_, ?_, ?_, ?_, ?_, ?_, hu⟩
  · rw [hh, hb]; exact hs.stage
  · rw [hh, hb]; exact hs.tick
  · rw [hh]; exact hs.cold
  · rw [hh]; exact hs.qual
  · rw [hh, hw]; exact hs.qualified
  · rw [hd, hn]; exact hs.due

theorem Steady.usableAgrees (h : Steady s u) (hs : s.usableAgrees) : u.usableAgrees := by
  have hb := h.basis
  simp only [Prod.mk.injEq] at hb
  obtain ⟨hshelf, hbattery, husable, _⟩ := hb
  show u.acct.usable = _
  rw [h.hup, hshelf, hbattery, husable]
  exact hs

theorem Steady.poised (h : Steady s u) (hs : s.poised) : u.poised :=
  poised_congr h.hup h.due (h.usableAgrees hs.usable) hs

/-! ### What keeps a rack sound -/

/-- The second state is sound when the first is. -/
structure Keeps (s u : State) : Prop where
  sound : s.sound → u.sound

theorem Steady.keeps (h : Steady s u) : Keeps s u := .mk fun hs =>
  ⟨h.table hs.table, h.standing hs.table hs.standing, h.poised hs.poised, h.budget hs.table hs.standing hs.budget⟩

theorem Sinks.keeps (h : Sinks s u) : Keeps s u := h.toSteady.keeps

theorem Keeps.refl (s : State) : Keeps s s := ⟨id⟩

theorem Keeps.trans (h : Keeps s t) (h' : Keeps t u) : Keeps s u := ⟨h'.sound ∘ h.sound⟩

theorem Keeps.ite {c : Prop} [Decidable c] {a b : State} (ha : c → Keeps s a) (hb : ¬c → Keeps s b) :
    Keeps s (if c then a else b) := by
  split
  · exact ha ‹_›
  · exact hb ‹_›

theorem Keeps.foldl {α : Type} {f : State → α → State} (h : ∀ s a, Keeps s (f s a)) (l : List α) (s : State) :
    Keeps s (l.foldl f s) := by
  induction l generalizing s with
  | nil => exact .refl s
  | cons a l ih => exact (h s a).trans (ih _)

/-- What a sound rack is read from. -/
def State.frame (s : State) :=
  (s.trays, s.queue, s.park, s.slotTrays,
    (s.hup.state, s.hup.cold, s.hup.qualified, s.hup.stage.isSome, s.hup.stageTick.isSome, s.hup.qualTimer.isSome),
    s.seq.autoDue, s.acct.shelf, s.acct.battery, s.acct.usable, s.acct.committed, s.acct.mode)

/-- A change beside what a sound rack is read from. -/
theorem Keeps.aside (h : u.frame = s.frame) : Keeps s u := by
  simp only [State.frame, Prod.mk.injEq] at h
  obtain ⟨ht, hq, hp, hsl, ⟨hst, hcold, hqd, hsg, htk, hqt⟩, hdue, hshelf, hbattery, husable, hcom, hmode⟩ := h
  have htr := tray_congr ht
  have hn : u.isNormal = s.isNormal := by unfold State.isNormal; rw [hst]
  have hb : u.onBattery = s.onBattery := by unfold State.onBattery; rw [hst, hcold]
  have hw : u.warmRegain = s.warmRegain := by unfold State.warmRegain; rw [hst, hcold]
  refine ⟨fun hs => ?_⟩
  refine ⟨⟨recordsLawful_congr ht hs.table.lawful, committedSums_congr ht hcom hs.table.sums,
      collectionsAgree_congr hq (by rw [hp]) hsl (fun n => by rw [htr]) hs.table.collections⟩, fun n => ?_, ?_, ?_⟩
  · rw [htr]
    obtain ⟨h1, h2, h3⟩ := hs.standing n
    exact ⟨hn ▸ h1, hn ▸ hb ▸ h2, h3⟩
  · refine ⟨?_, ?_, ?_, ?_, ?_, ?_, ?_⟩
    · rw [hsg, hb]; exact hs.poised.stage
    · rw [htk, hb]; exact hs.poised.tick
    · rw [hcold, hst]; exact hs.poised.cold
    · rw [hqt, hst]; exact hs.poised.qual
    · rw [hqd, hw]; exact hs.poised.qualified
    · rw [hdue, hn]; exact hs.poised.due
    · show u.acct.usable = _
      rw [hst, hcold, hshelf, hbattery, husable]; exact hs.poised.usable
  · have hm : u.isSettled = s.isSettled := by unfold State.isSettled; rw [hmode]
    unfold State.budgetKept
    rw [hm, hcom, husable]
    exact hs.budget

/-! ### A new basis: the holdup record and usable capacity replaced together -/

/-- The second state has the tables of the first, under another holdup record, other capacities or another mode. -/
structure Rebased (s u : State) : Prop where
  trays : u.trays = s.trays
  queue : u.queue = s.queue
  park : u.park = s.park
  slots : u.slotTrays = s.slotTrays
  committed : u.acct.committed = s.acct.committed

theorem Rebased.table (h : Rebased s u) (hs : s.tableSound) : u.tableSound :=
  ⟨recordsLawful_congr h.trays hs.lawful, committedSums_congr h.trays h.committed hs.sums,
    collectionsAgree_congr h.queue (by rw [h.park]) h.slots (fun n => by rw [tray_congr h.trays]) hs.collections⟩

/-- A holdup state with the battery or the shelf behind it allows what one before it allowed, once no tray waits or starts. -/
theorem Rebased.standing (h : Rebased s u) (hs : s.standing)
    (hstart : u.isNormal = false → ∀ n, (s.tray n).state ≠ .queued ∧ (s.tray n).state ≠ .inrush)
    (hdark : u.isNormal = false → u.onBattery = false → ∀ n, (s.tray n).state ≠ .run ∧ (s.tray n).state ≠ .parked) :
    u.standing := fun n => by
  rw [tray_congr h.trays]
  exact ⟨fun hn => hstart hn n, fun hn hb => hdark hn hb n, (hs n).cover⟩

/-! ### No tray holds a commitment in DARK and cold REGAIN -/

/-- Outside NORMAL and an episode every tray is at rest, and not PARKED. -/
theorem standing_rests (h : s.standing) (hn : s.isNormal = false) (hb : s.onBattery = false) (n : TrayId) :
    (s.tray n).state.rests = true := by
  obtain ⟨hq, hi⟩ := (h n).started hn
  obtain ⟨hr, _⟩ := (h n).dark hn hb
  cases e : (s.tray n).state <;> first | rfl | contradiction

theorem committed_dark (h : s.sound) (hn : s.isNormal = false) (hb : s.onBattery = false) : s.acct.committed = 0 :=
  committed_of_rests h.table (standing_rests h.standing hn hb)

theorem cold_dark (h : s.poised) (hc : s.hup.cold = true) : s.isNormal = false ∧ s.onBattery = false := by
  unfold State.isNormal State.onBattery
  rw [h.cold hc, hc]
  exact ⟨rfl, rfl⟩

/-! ### Entering NORMAL (R85, R86) -/

/-- The rack as NORMAL begins, before its admission pass. -/
def State.normalBegun (s : State) : State :=
  setUsable (s.setHup { s.hup with
    state := .normal, cold := false, qualified := false, stage := none, stageTick := none, qualTimer := none
    lastElapsed := if s.hup.cold then s.hup.lastElapsed else (s.hup.total - s.hup.timer).toNat })

theorem normalBegun_sound (ht : s.tableSound) (hs : s.standing) (hc : s.acct.committed ≤ s.acct.shelf) : s.normalBegun.sound where
  table := Rebased.table (s := s) ⟨rfl, rfl, rfl, rfl, rfl⟩ ht
  standing := Rebased.standing (s := s) ⟨rfl, rfl, rfl, rfl, rfl⟩ hs nofun nofun
  poised := ⟨rfl, rfl, nofun, nofun, nofun, fun _ => rfl, rfl⟩
  budget _ := hc

/-- The automatic run due mark may be set in NORMAL. -/
theorem setDue_keeps (due begun : Bool) (hn : due = true → s.isNormal = true) : Keeps s (s.setDue due begun) := .mk fun hs =>
  ⟨Rebased.table (s := s) ⟨rfl, rfl, rfl, rfl, rfl⟩ hs.table,
    Rebased.standing (s := s) ⟨rfl, rfl, rfl, rfl, rfl⟩ hs.standing (fun h n => (hs.standing n).started h)
      fun h hb n => (hs.standing n).dark h hb,
    { hs.poised with due := hn }, hs.budget⟩

theorem enterNormal_eq (s : State) : ∃ k : Option Nat, ∃ r : Option Reason, enterNormal s =
    raise .normalBack (journalise .normalBack none k r (opportunity
      (if s.hup.cold then (admissionIfAllowed s.normalBegun).setDue true false else admissionIfAllowed s.normalBegun))) :=
  ⟨_, _, rfl⟩

theorem enterNormal_sound (ht : s.tableSound) (hs : s.standing) (hc : s.acct.committed ≤ s.acct.shelf) :
    (enterNormal s).sound := by
  have hbegun := normalBegun_sound ht hs hc
  have hadm := admissionIfAllowed_steady s.normalBegun
  have hn : (admissionIfAllowed s.normalBegun).isNormal = true := hadm.isNormal.trans rfl
  obtain ⟨k, r, he⟩ := enterNormal_eq s
  rw [he]
  have hdue : Keeps s.normalBegun (if s.hup.cold then (admissionIfAllowed s.normalBegun).setDue true false
      else admissionIfAllowed s.normalBegun) :=
    .ite (fun _ => hadm.keeps.trans (setDue_keeps true false fun _ => hn)) fun _ => hadm.keeps
  exact (((hdue.trans (opportunity_steady _).keeps).trans (journalise_steady ..).keeps).trans (raise_steady ..).keeps).sound hbegun

/-- From cold REGAIN nothing is committed as NORMAL is entered. -/
theorem enterNormal_cold (hcold : s.hup.cold = true) : Keeps s (enterNormal s) := .mk fun hs => by
  obtain ⟨hn, hb⟩ := cold_dark hs.poised hcold
  refine enterNormal_sound hs.table hs.standing ?_
  rw [committed_dark hs hn hb]
  exact Nat.zero_le _

/-- The committed-fall test enters NORMAL within the budget. -/
theorem regainTest_cases (s : State) : regainTest s = s ∨ regainTest s = enterNormal s ∧ s.acct.committed ≤ s.acct.shelf := by
  unfold regainTest
  split
  · rename_i h
    rw [Bool.and_eq_true, decide_eq_true_eq] at h
    exact Or.inr ⟨rfl, h.2⟩
  · exact Or.inl rfl

theorem regainTest_keeps (s : State) : Keeps s (regainTest s) := .mk fun hs => by
  rcases regainTest_cases s with e | ⟨e, hc⟩ <;> rw [e]
  · exact hs
  · exact enterNormal_sound hs.table hs.standing hc

/-! ### The end of a claim and of an event -/

theorem endClaim_keeps (s : State) : Keeps s (endClaim s) := by
  have h (a : Agenda) : Steady s (if (s.agenda.admission && !s.agenda.shortfall) = true then admissionIfAllowed (s.setAgenda a)
      else s.setAgenda a) :=
    .ite (fun _ => (setAgenda_steady a s).trans (admissionIfAllowed_steady _)) fun _ => setAgenda_steady a s
  unfold endClaim
  dsimp only
  exact .ite (fun _ => ((h _).trans (setAgenda_steady _ _)).keeps.trans (regainTest_keeps _)) fun _ => (h _).keeps

theorem finishRounds_keeps (k : Nat) (s : State) : Keeps s (finishRounds k s) := by
  induction k generalizing s with
  | zero => exact .refl s
  | succ k ih =>
    have ho := (endClaim_keeps s).trans (offerStart_steady _).keeps
    unfold finishRounds
    exact .ite (fun _ => .ite (fun _ => ho.trans (ih _)) fun _ => ho) fun _ => endClaim_keeps s

theorem finish_keeps (s : State) : Keeps s (finish s) := (finishRounds_keeps 33 s).trans (setAgenda_steady ..).keeps

/-! ### DARK and cold REGAIN (R86, R89) -/

/-- Every tray is IDLE, ISOLATED or FAULTED. -/
def State.allDark (s : State) : Prop :=
  ∀ n : TrayId, ((s.tray n).state ≠ .queued ∧ (s.tray n).state ≠ .inrush) ∧ (s.tray n).state ≠ .run ∧ (s.tray n).state ≠ .parked

/-- The states that a DARK entry ends. -/
def TrayState.darkens : TrayState → Bool
  | .queued | .inrush | .run | .parked => true
  | _ => false

theorem darkenTray_tray (s : State) (n k : TrayId) : (darkenTray s n).tray k =
    if k = n ∧ (s.tray k).state.darkens = true then (s.tray k).enter .idle 0 none else s.tray k := by
  have he : darkenTray s n = if (s.tray n).state.darkens = true then moveBare n .idle 0 none s else s := by
    unfold darkenTray
    cases (s.tray n).state <;> rfl
  rw [he]
  by_cases hd : (s.tray n).state.darkens = true
  · rw [if_pos hd, moveBare_tray]
    by_cases hk : k = n
    · subst hk
      rw [if_pos rfl, if_pos ⟨rfl, hd⟩]
    · rw [if_neg hk, if_neg fun e => hk e.1]
  · rw [if_neg hd, if_neg]
    rintro ⟨rfl, e⟩
    exact hd e

theorem darkenAll_state (l : List TrayId) (s : State) (k : TrayId) (h : k ∈ l ∨ (s.tray k).state.darkens = false) :
    ((l.foldl darkenTray s).tray k).state.darkens = false := by
  induction l generalizing s with
  | nil => exact h.resolve_left List.not_mem_nil
  | cons n l ih =>
    refine ih _ ?_
    rw [darkenTray_tray]
    split
    · exact Or.inr rfl
    · rename_i hd
      rcases h with h | h
      · rcases List.mem_cons.mp h with rfl | h
        · exact Or.inr (Bool.eq_false_iff.mpr fun e => hd ⟨rfl, e⟩)
        · exact Or.inl h
      · exact Or.inr h

theorem allDark_of_darkens (h : ∀ n, (s.tray n).state.darkens = false) : s.allDark := fun n => by
  have hn := h n
  refine ⟨⟨?_, ?_⟩, ?_, ?_⟩ <;> intro e <;> rw [e] at hn <;> exact absurd hn (by decide)

theorem allDark_committed (ht : s.tableSound) (h : s.allDark) : s.acct.committed = 0 :=
  committed_of_rests ht fun n => by
    obtain ⟨⟨hq, hi⟩, hr, _⟩ := h n
    cases e : (s.tray n).state <;> first | rfl | contradiction

/-- A dark rack under a holdup record of DARK or cold REGAIN, with no usable capacity. -/
theorem Rebased.dark (h : Rebased s u) (ht : s.tableSound) (hs : s.standing) (hd : s.allDark) (hp : u.poised) : u.sound where
  table := h.table ht
  standing := h.standing hs (fun _ n => (hd n).1) fun _ _ n => (hd n).2
  poised := hp
  budget _ := by
    rw [h.committed, allDark_committed ht hd]
    exact Nat.zero_le _

/-- The rack as cold REGAIN begins. -/
def State.coldBegun (s : State) : State :=
  setUsable (s.setHup { s.hup with state := .regain, cold := true, qualTimer := some s.hup.qualification })

theorem enterColdRegain_keeps (hst : s.hup.state = .dark) : Keeps s (enterColdRegain s) := by
  refine ⟨fun hs => ?_⟩
  have hn : s.isNormal = false := by unfold State.isNormal; rw [hst]; rfl
  have hb : s.onBattery = false := by unfold State.onBattery; rw [hst]; rfl
  have hw : s.warmRegain = false := by unfold State.warmRegain; rw [hst]; rfl
  have hpoised : s.coldBegun.poised := ⟨hs.poised.stage.trans hb, hs.poised.tick.trans hb, fun _ => rfl, fun _ => rfl,
    fun h => absurd (hw.symm.trans (hs.poised.qualified h)) Bool.false_ne_true,
    fun h => absurd (hn.symm.trans (hs.poised.due h)) Bool.false_ne_true, rfl⟩
  have hbegun : s.coldBegun.sound := Rebased.dark (s := s) ⟨rfl, rfl, rfl, rfl, rfl⟩ hs.table hs.standing
    (fun n => ⟨(hs.standing n).started hn, (hs.standing n).dark hn hb⟩) hpoised
  exact (journalise_steady .regain none none (some .cold) s.coldBegun).keeps.sound hbegun

/-- The rack as DARK begins, once its trays have been darkened. -/
def State.darkBegun (s : State) : State :=
  setUsable ((((s.setPace none).setHup { s.hup with
    state := .dark, cold := false, qualified := false, qualTimer := none, stage := none, stageTick := none
    lastElapsed := if s.hup.stage.isSome then (s.hup.total - s.hup.timer).toNat else s.hup.lastElapsed })).setDue false false)

/-- A DARK entry once its trays have been darkened. -/
def darkEntered (reason : Reason) (fromCold : Bool) (moved : Nat) (s : State) : State :=
  let v := journalise .dark none (some moved) (some reason) s.darkBegun
  let w := if fromCold then v else raise .dark v
  if w.sup.pfailAsserted then w else enterColdRegain w

theorem enterDark_eq (reason : Reason) (s : State) :
    ∃ b m, enterDark reason s = darkEntered reason b m (allTrays.foldl darkenTray s) := by
  refine ⟨s.hup.state == .regain && s.hup.cold, (allTrays.filter fun t => (s.tray t).state.darkens).length, ?_⟩
  unfold enterDark
  dsimp only
  generalize allTrays.foldl darkenTray s = v
  rfl

/-- DARK entry leaves nothing committed. -/
theorem enterDark_sound (reason : Reason) (ht : s.tableSound) (hs : s.standing) : (enterDark reason s).sound := by
  have hfold : Sinks s (allTrays.foldl darkenTray s) := .foldl darkenTray_sinks _ s
  have hdark : (allTrays.foldl darkenTray s).allDark :=
    allDark_of_darkens fun n => darkenAll_state _ s n (Or.inl (mem_allTrays n))
  have hvt := hfold.table ht
  have hvs := hfold.standing ht hs
  obtain ⟨b, m, he⟩ := enterDark_eq reason s
  rw [he]
  generalize allTrays.foldl darkenTray s = v at hdark hvt hvs ⊢
  have hbegun : v.darkBegun.sound := Rebased.dark (s := v) ⟨rfl, rfl, rfl, rfl, rfl⟩ hvt hvs hdark
    ⟨rfl, rfl, nofun, nofun, nofun, nofun, rfl⟩
  have hstate : v.darkBegun.hup.state = .dark := rfl
  unfold darkEntered
  generalize v.darkBegun = w at hbegun hstate
  have hraise : Steady w (if b = true then journalise .dark none (some m) (some reason) w
      else raise .dark (journalise .dark none (some m) (some reason) w)) :=
    .ite (fun _ => journalise_steady ..) fun _ => (journalise_steady ..).trans (raise_steady ..)
  exact (hraise.keeps.trans (.ite (fun _ => .refl _) fun _ => enterColdRegain_keeps
    ((congrArg Holdup.state hraise.hup).trans hstate))).sound hbegun

theorem enterDark_keeps (reason : Reason) (s : State) : Keeps s (enterDark reason s) := .mk fun hs =>
  enterDark_sound reason hs.table hs.standing

end Sys2Proof.Machine
end

section
/-! SUPPORT. The stages of an episode, entry into HOLDUP and REGAIN, and the capacity claim, each of which keeps a rack sound
(R33, R76, R79, R80, R81, R82, R84). -/

namespace Sys2Proof.Machine

variable {s t u : State}

/-! ### Stages (R78 to R80) -/

theorem stageSheds_sinks (k : Nat) (l : List TrayId) (s : State) (m : Nat) :
    Sinks s (l.foldl (stageShed k) (s, m)).1 := by
  induction l generalizing s m with
  | nil => exact .refl s
  | cons n l ih =>
    have h := stageShed_sinks k s m n
    rw [List.foldl_cons]
    generalize stageShed k (s, m) n = a at h ⊢
    obtain ⟨v, m'⟩ := a
    exact h.trans (ih v m')

theorem endStage_keeps (k : Nat) (s : State) : Keeps s (endStage k s) := by
  have h := stageSheds_sinks k allTrays s 0
  unfold endStage
  generalize allTrays.foldl (stageShed k) (s, 0) = a at h ⊢
  obtain ⟨v, m⟩ := a
  exact ((h.trans (journalise_sinks ..)).trans (.ite (fun _ => .refl _) fun _ => raise_sinks ..)).keeps.trans
    (regainTest_keeps _)

/-- The stage field of an episode may change. -/
theorem setStage_keeps (v : Stage) (h : s.onBattery = true) : Keeps s (setStage (some v) s) := by
  refine ⟨fun hs => ?_⟩
  have hst : s.hup.stage.isSome = true := hs.poised.stage.trans h
  refine (Keeps.aside ?_).sound hs
  simp only [State.frame, setStage, State.setHup, hst]
  rfl

theorem enterOverrun_keeps (h : s.onBattery = true) : Keeps s (enterOverrun s) :=
  ((setStage_keeps .overrun h).trans (journalise_steady ..).keeps).trans (raise_steady ..).keeps

theorem advanceStages_keeps (k : Nat) (s : State) : Keeps s (advanceStages k s) := by
  induction k generalizing s with
  | zero => exact .refl s
  | succ k ih =>
    unfold advanceStages
    split
    · exact .ite (fun _ => (endStage_keeps 1 s).trans (.ite (fun h => (setStage_keeps .two h).trans (ih _)) fun _ => .refl _))
        fun _ => .refl s
    · exact .ite (fun _ => (endStage_keeps 2 s).trans (.ite (fun h => (setStage_keeps .three h).trans (ih _)) fun _ => .refl _))
        fun _ => .refl s
    · exact .ite (fun _ => (endStage_keeps 3 s).trans (.ite (fun h => enterOverrun_keeps h) fun _ => .refl _)) fun _ => .refl s
    · exact .refl s

/-! ### Between HOLDUP and warm REGAIN (R81, R82) -/

/-- Another state of the same episode. -/
theorem Rebased.episode (h : Rebased s u) (hs : s.sound) (hb : s.onBattery = true) (hub : u.onBattery = true)
    (hp : u.poised) (hm : u.acct.mode = s.acct.mode) (hu : u.acct.usable = s.acct.usable) : u.sound where
  table := h.table hs.table
  standing := by
    have hn : s.isNormal = false := by
      unfold State.onBattery at hb
      unfold State.isNormal
      cases e : s.hup.state <;> rw [e] at hb <;> first | rfl | exact absurd hb Bool.false_ne_true
    exact h.standing hs.standing (fun _ n => (hs.standing n).started hn) fun _ hd => absurd (hub.symm.trans hd) (by decide)
  poised := hp
  budget hset := by
    rw [h.committed, hu]
    refine hs.budget ?_
    unfold State.isSettled at hset ⊢
    rwa [hm] at hset

/-- In an episode usable capacity is the battery's. -/
theorem usable_battery (h : s.poised) (hb : s.onBattery = true) : s.acct.usable = s.acct.battery := by
  rw [h.usable]
  unfold State.onBattery at hb
  cases e : s.hup.state <;> rw [e] at hb <;> first | rfl | exact absurd hb Bool.false_ne_true | skip
  have hc : s.hup.cold = false := by simpa using hb
  rw [hc]
  rfl

/-- The rack as HOLDUP begins again. -/
def State.holdupResumed (s : State) : State :=
  setUsable (s.setHup { s.hup with state := .holdup, qualTimer := none, qualified := false })

theorem resumeHoldup_keeps (h : s.warmRegain = true) : Keeps s (resumeHoldup s) := by
  refine ⟨fun hs => ?_⟩
  have hb : s.onBattery = true := by
    unfold State.onBattery
    rw [show (s.hup.state == .regain && !s.hup.cold) = true from h, Bool.or_true]
  have hc : s.hup.cold = false := by
    unfold State.warmRegain at h
    simpa using ((Bool.and_eq_true _ _).mp h).2
  have hdue : s.seq.autoDue = true → False := fun hd => by
    have hn := hs.poised.due hd
    unfold State.warmRegain at h
    unfold State.isNormal at hn
    cases e : s.hup.state <;> rw [e] at hn h <;> contradiction
  have hp : s.holdupResumed.poised := ⟨hs.poised.stage.trans hb, hs.poised.tick.trans hb,
    fun e => absurd (hc.symm.trans e) Bool.false_ne_true, nofun, nofun, fun e => (hdue e).elim, rfl⟩
  have hbegun : s.holdupResumed.sound := Rebased.episode (s := s) ⟨rfl, rfl, rfl, rfl, rfl⟩ hs hb rfl hp rfl
    (usable_battery hs.poised hb).symm
  exact ((journalise_steady .holdup none (some (timerValue s.holdupResumed.hup.timer)) (some .resumed) s.holdupResumed).trans
    (raise_steady .holdup _)).keeps.sound hbegun

/-- The rack as warm REGAIN begins. -/
def State.warmBegun (s : State) : State :=
  setUsable (s.setHup { s.hup with state := .regain, cold := false, qualified := false, qualTimer := some s.hup.qualification })

theorem enterWarmRegain_keeps (h : s.hup.state = .holdup) : Keeps s (enterWarmRegain s) := by
  refine ⟨fun hs => ?_⟩
  have hb : s.onBattery = true := by unfold State.onBattery; rw [h]; rfl
  have hn : s.isNormal = false := by unfold State.isNormal; rw [h]; rfl
  have hp : s.warmBegun.poised := ⟨hs.poised.stage.trans hb, hs.poised.tick.trans hb, nofun, fun _ => rfl, nofun,
    fun e => absurd (hn.symm.trans (hs.poised.due e)) Bool.false_ne_true, rfl⟩
  have hbegun : s.warmBegun.sound := Rebased.episode (s := s) ⟨rfl, rfl, rfl, rfl, rfl⟩ hs hb rfl hp rfl
    (usable_battery hs.poised hb).symm
  exact (journalise_steady .regain none (some (timerValue s.warmBegun.hup.timer)) (some .warm) s.warmBegun).keeps.sound hbegun

/-! ### Entry into HOLDUP (R76) -/

theorem holdupPark_sinks {st : TrayState} (r : Reason) (h : st = .queued ∨ st = .inrush) (s : State) (n : TrayId) :
    Sinks s (holdupPark st r s n) := by
  refine .ite (fun e => ?_) fun _ => .refl s
  have hst : (s.tray n).state = st := eq_of_beq e
  exact (move_parked_sinks _ (Or.inr (hst ▸ h))).trans (journalise_sinks ..)

theorem holdupPark_leaves {st : TrayState} (r : Reason) (h : st.rests = false) (s : State) (n : TrayId) :
    ((holdupPark st r s n).tray n).state ≠ st := by
  unfold holdupPark
  split
  · have hr := move_rests (n := n) (st := .parked) (s.tray n).grant none s rfl
    dsimp only
    generalize move n .parked (s.tray n).grant none s = v at hr ⊢
    intro e
    rw [show ((journalise .holdupPark (some (.tray n)) (some (s.tray n).commitment) (some r) v).tray n).state =
      (v.tray n).state from rfl] at e
    rw [e, h] at hr
    exact absurd hr Bool.false_ne_true
  · rename_i e
    exact fun hst => e (beq_iff_eq.mpr hst)

/-- Steps that sink trays, each taking its own tray out of a state, leave none of the list's trays there. -/
theorem sinksAll_leaves {st : TrayState} {f : State → TrayId → State} (hst : st.rests = false)
    (hf : ∀ s n, Sinks s (f s n)) (hn : ∀ s n, ((f s n).tray n).state ≠ st) (l : List TrayId) (s : State) (k : TrayId)
    (h : k ∈ l ∨ (s.tray k).state ≠ st) : ((l.foldl f s).tray k).state ≠ st := by
  induction l generalizing s with
  | nil => exact h.resolve_left List.not_mem_nil
  | cons n l ih =>
    refine ih _ ?_
    rcases h with h | h
    · rcases List.mem_cons.mp h with rfl | h
      · exact Or.inr (hn s k)
      · exact Or.inl h
    · exact Or.inr fun e => h ((hf s n).from e hst)

/-- The trays that HOLDUP entry parks (R76 steps 1 and 2). -/
def holdupParked (s : State) : State :=
  allTrays.foldl (holdupPark .inrush .shed) (allTrays.foldl (holdupPark .queued .withdrawn) s)

theorem holdupParked_ends (s : State) : Sinks s (holdupParked s) ∧
    ∀ n, ((holdupParked s).tray n).state ≠ .queued ∧ ((holdupParked s).tray n).state ≠ .inrush := by
  have hq := holdupPark_sinks (st := .queued) .withdrawn (Or.inl rfl)
  have hi := holdupPark_sinks (st := .inrush) .shed (Or.inr rfl)
  have h1 : Sinks s (allTrays.foldl (holdupPark .queued .withdrawn) s) := .foldl hq _ s
  have hnq (n : TrayId) := sinksAll_leaves (st := .queued) rfl hq (holdupPark_leaves .withdrawn rfl) allTrays s n
    (Or.inl (mem_allTrays n))
  unfold holdupParked
  generalize allTrays.foldl (holdupPark .queued .withdrawn) s = v at h1 hnq ⊢
  have h2 : Sinks v (allTrays.foldl (holdupPark .inrush .shed) v) := .foldl hi _ v
  exact ⟨h1.trans h2, fun n => ⟨fun e => hnq n (h2.from e rfl),
    sinksAll_leaves (st := .inrush) rfl hi (holdupPark_leaves .shed rfl) allTrays v n (Or.inl (mem_allTrays n))⟩⟩

/-- The rack as HOLDUP begins, before the shortfall pass. -/
def State.holdupBegun (s : State) : State :=
  setUsable ((((s.setPace none).setHup { s.hup with state := .holdup, cold := false })).setDue false false)

/-- A HOLDUP entry once its trays have been parked. -/
def holdupEntered (s : State) : State :=
  let s := beginEpisode (shortfallIfDue s.holdupBegun)
  advanceStages 3 (raise .holdup (journalise .holdup none (some s.acct.battery) (some .newEpisode) s))

theorem enterHoldup_eq (s : State) : enterHoldup s = holdupEntered (holdupParked s) := by
  unfold enterHoldup holdupParked
  dsimp only
  generalize allTrays.foldl (holdupPark .queued .withdrawn) s = v
  generalize allTrays.foldl (holdupPark .inrush .shed) v = w
  rfl

/-- The episode begun on a rack whose holdup state is HOLDUP and whose budget is kept. -/
theorem beginEpisode_sound (ht : s.tableSound) (hs : s.standing) (hst : s.hup.state = .holdup) (hc : s.hup.cold = false)
    (hq : s.hup.qualTimer.isSome = false) (hd : s.seq.autoDue = false) (hu : s.usableAgrees) (hb : s.budgetKept) :
    (beginEpisode s).sound where
  table := Rebased.table (s := s) ⟨rfl, rfl, rfl, rfl, rfl⟩ ht
  standing := Rebased.standing (s := s) ⟨rfl, rfl, rfl, rfl, rfl⟩ hs (fun h n => (hs n).started h)
    fun h hb n => (hs n).dark h hb
  poised := by
    have hbat : (beginEpisode s).onBattery = true := by
      show (s.hup.state == .holdup || _) = true
      rw [hst]
      rfl
    exact ⟨hbat.symm, hbat.symm, fun e => absurd (hc.symm.trans e) Bool.false_ne_true,
      fun e => absurd (hq.symm.trans e) Bool.false_ne_true, nofun, fun e => absurd (hd.symm.trans e) Bool.false_ne_true, hu⟩
  budget := hb

theorem enterHoldup_keeps (hn : s.isNormal = true) : Keeps s (enterHoldup s) := by
  refine ⟨fun hs => ?_⟩
  obtain ⟨hsink, hgone⟩ := holdupParked_ends s
  rw [enterHoldup_eq]
  have hv := hsink.keeps.sound hs
  have hvn := hsink.isNormal.trans hn
  generalize holdupParked s = v at hv hvn hgone ⊢
  have hqual : v.hup.qualTimer.isSome = false := Bool.eq_false_iff.mpr fun e => by
    have h := hv.poised.qual e
    unfold State.isNormal at hvn
    rw [h] at hvn
    exact absurd hvn Bool.false_ne_true
  have htable : v.holdupBegun.tableSound := Rebased.table (s := v) ⟨rfl, rfl, rfl, rfl, rfl⟩ hv.table
  have hstanding : v.holdupBegun.standing := Rebased.standing (s := v) ⟨rfl, rfl, rfl, rfl, rfl⟩ hv.standing
    (fun _ => hgone) fun _ => nofun
  have hpass := shortfallIfDue_sinks htable
  have hag : (shortfallIfDue v.holdupBegun).usableAgrees := hpass.usableAgrees rfl
  have hbegun := beginEpisode_sound (hpass.table htable) (hpass.standing htable hstanding) (congrArg Holdup.state hpass.hup)
    (congrArg Holdup.cold hpass.hup) ((congrArg (fun h : Holdup => h.qualTimer.isSome) hpass.hup).trans hqual) hpass.due hag
    (shortfallIfDue_budget htable)
  exact (((journalise_steady ..).trans (raise_steady ..)).keeps.trans (advanceStages_keeps 3 _)).sound hbegun

/-! ### The passes that restore the budget (R32, R33, R46) -/

theorem shortfallIfDue_sound (ht : s.tableSound) (hs : s.standing) (hp : s.poised) : (shortfallIfDue s).sound :=
  have h := shortfallIfDue_sinks ht
  ⟨h.table ht, h.standing ht hs, h.toSteady.poised hp, shortfallIfDue_budget ht⟩

end Sys2Proof.Machine
end

section
/-! SUPPORT. What the events of the stations, the timers, the pins and the analog inputs are made of keeps a rack sound (R29, R30,
R33, R107, R115, R125). -/

namespace Sys2Proof.Machine

variable {s t u : State}

/-! ### Asides -/

theorem setPort_keeps (p : Port) (r : PortRec) (s : State) : Keeps s (s.setPort p r) := .aside (by cases p <;> rfl)

theorem respond_keeps (p : Port) (tag : Byte) (a : Answer) (s : State) : Keeps s (respond p tag a s) := setPort_keeps ..

theorem releaseAll_keeps (s : State) : Keeps s (s.mapPorts PortRec.releaseAll) := .aside rfl

theorem setStation_keeps (a : StationId) (r : Station) (s : State) : Keeps s (s.setStation a r) := .aside rfl

theorem setZone_keeps (z : ZoneId) (r : Zone) (s : State) : Keeps s (s.setZone z r) := .aside rfl

theorem setLatches_keeps (z : ZoneId) (v : Bool) (s : State) : Keeps s (setLatches z v s) := .aside rfl

theorem journalise_keeps (k : Kind) (a : Option Subject) (v : Option Nat) (r : Option Reason) (s : State) :
    Keeps s (journalise k a v r s) := (journalise_steady ..).keeps

theorem raise_keeps (c : Alert) (s : State) : Keeps s (raise c s) := (raise_steady ..).keeps

/-! ### Capacity claims (R33, R34, R88) -/

/-- The capacities worked out again, with the basis of the budget. -/
def State.recounted (s : State) : State :=
  setUsable { s with acct := { s.acct with shelf := s.shelfNow, battery := s.batteryNow } }

/-- What the CAPACITY entry of a claim leaves of the rack before it: all but the capacities. -/
structure Recounted (s u : State) : Prop extends Rebased s u where
  hup : u.hup = s.hup
  due : u.seq.autoDue = s.seq.autoDue
  mode : u.acct.mode = s.acct.mode
  usable : u.usableAgrees

theorem recounted_self (s : State) : Recounted s s.recounted := ⟨⟨rfl, rfl, rfl, rfl, rfl⟩, rfl, rfl, rfl, rfl⟩

theorem capacityEntry_recounted (subject : Option Subject) (reason : Reason) (s : State) :
    Recounted s (capacityEntry subject reason s) := by
  have he : ∃ v r, capacityEntry subject reason s =
      if s.recounted.acct.shelf != s.acct.shelf || s.recounted.acct.battery != s.acct.battery then
        raise .capacity (journalise .capacity subject v r s.recounted) else s.recounted := ⟨_, _, rfl⟩
  obtain ⟨v, r, he⟩ := he
  rw [he]
  split
  · exact ⟨⟨rfl, rfl, rfl, rfl, rfl⟩, rfl, rfl, rfl, rfl⟩
  · exact recounted_self s

theorem Recounted.standing (h : Recounted s u) (hs : s.standing) : u.standing := fun n => by
  rw [tray_congr h.trays]
  exact (allows_congr h.hup).mpr (hs n)

theorem Recounted.poised (h : Recounted s u) (hs : s.poised) : u.poised := poised_congr h.hup h.due h.usable hs

theorem shortfallIfDue_keeps (s : State) : Keeps s (shortfallIfDue s) := .mk fun h =>
  shortfallIfDue_sound h.table h.standing h.poised

/-- The passes of a claim that enters no other holdup state. -/
theorem capacityPasses_sound (h : Recounted s u) (hs : s.sound) :
    (if u.acct.usable < s.acct.usable then shortfallIfDue u else u).sound := by
  have ht := h.table hs.table
  have hst := h.standing hs.standing
  have hp := h.poised hs.poised
  split
  · exact shortfallIfDue_sound ht hst hp
  · rename_i hle
    refine ⟨ht, hst, hp, fun hset => ?_⟩
    rw [h.committed]
    refine Nat.le_trans (hs.budget ?_) (Nat.not_lt.mp hle)
    unfold State.isSettled at hset ⊢
    rwa [h.mode] at hset

/-- A claim from its CAPACITY entry on restores the budget. -/
theorem capacityEffect_sound (h : Recounted s u) (hs : s.sound) : (capacityEffect s u).sound := by
  have ht := h.table hs.table
  have hst := h.standing hs.standing
  unfold capacityEffect
  split
  · exact enterDark_sound _ ht hst
  · dsimp only
    have hr : (if (u.acct.shelf != s.acct.shelf) = true then regainTest u else u) = u ∨
        (if (u.acct.shelf != s.acct.shelf) = true then regainTest u else u).sound := by
      split
      · rcases regainTest_cases u with e | ⟨e, hc⟩ <;> rw [e]
        · exact Or.inl rfl
        · exact Or.inr (enterNormal_sound ht hst hc)
      · exact Or.inl rfl
    generalize (if (u.acct.shelf != s.acct.shelf) = true then regainTest u else u) = v at hr ⊢
    have due (v : State) : Keeps v (if s.headroom < v.headroom then admissionDue v else v) :=
      .ite (fun _ => (admissionDue_steady v).keeps) fun _ => .refl v
    rcases hr with rfl | hv
    · split
      · rename_i hne
        rw [h.hup, bne_self_eq_false] at hne
        exact absurd hne Bool.false_ne_true
      · exact (due _).sound (capacityPasses_sound h hs)
    · refine Keeps.sound (s := v) (.ite (fun _ => .refl v) fun _ => .trans ?_ (due _)) hv
      exact .ite (fun _ => shortfallIfDue_keeps v) fun _ => .refl v

theorem capacityClaim_keeps (subject : Option Subject) (reason : Reason) (s : State) :
    Keeps s (capacityClaim subject reason s) := .mk fun hs => by
  rw [capacityClaim_eq]
  exact capacityEffect_sound (capacityEntry_recounted subject reason s) hs

/-! ### Polls and rounds (R32, R61, R107) -/

theorem sendPoll_keeps (a : StationId) (s : State) : Keeps s (sendPoll a s) := by
  unfold sendPoll
  refine Keeps.trans (t := if (s.pollFor a).sent.isSome then
      s.setStation a { s.station a with lastPoll := (s.pollFor a).sent } else s)
    (.ite (fun _ => setStation_keeps ..) fun _ => .refl s) ?_
  exact .aside rfl

/-- The rack as RECOVERING ends, before the passes. -/
def State.settles (s : State) : State := { s with acct := { s.acct with mode := .settled } }

/-- The end of RECOVERING sheds what the budget does not cover. -/
theorem settles_sound (hs : s.sound) : (shortfallIfDue s.settles).sound := by
  refine shortfallIfDue_sound (Rebased.table (s := s) ⟨rfl, rfl, rfl, rfl, rfl⟩ hs.table) (fun n => ?_)
    (poised_congr (s := s) rfl rfl hs.poised.usable hs.poised)
  exact (allows_congr (s := s) (u := s.settles) rfl).mpr (hs.standing n)

theorem recoveringEnds_keeps (s : State) : Keeps s (recoveringEnds s) := by
  refine ⟨fun hs => ?_⟩
  have hv : (shortfallIfDue { s with acct := { s.acct with mode := .settled } }).sound := settles_sound hs
  unfold recoveringEnds
  dsimp only
  generalize shortfallIfDue { s with acct := { s.acct with mode := .settled } } = v at hv ⊢
  have hadm : Steady v (if v.isNormal then admissionPass v else v) := .ite (fun hn => admissionPass_steady hn) fun _ => .refl v
  exact ((hadm.trans (setAgenda_steady _ _)).trans ((opportunity_steady _).trans (journalise_steady ..))).keeps.sound hv

/-- An automatic run that is due is taken in NORMAL. -/
theorem automaticRun_keeps (s : State) : Keeps s (automaticRun s) := by
  refine ⟨fun hs => ?_⟩
  refine Keeps.sound (s := s) (.ite (fun hdue => ?_) fun _ => .refl s) hs
  have hn : s.isNormal = true := hs.poised.due hdue
  refine .ite (fun _ => ?_) fun _ => setDue_keeps true true fun _ => hn
  exact (setDue_keeps false false nofun).trans (.ite (fun _ => (planRun_steady (s := s.setDue false false) true hn).keeps) fun _ => .refl _)

theorem countRound_keeps (s : State) : Keeps s (countRound s) := .aside rfl

theorem recoverIfDue_keeps (s : State) : Keeps s (recoverIfDue s) := .ite (fun _ => recoveringEnds_keeps s) fun _ => .refl s

theorem roundEnd_keeps (s : State) : Keeps s (roundEnd s) := by
  have h := (((countRound_keeps s).trans (recoverIfDue_keeps _)).trans (endClaim_keeps _)).trans (automaticRun_keeps _)
  rw [roundEnd_eq]
  exact .ite (fun _ => h.trans (admissionDue_steady _).keeps) fun _ => h

theorem pollEnded_keeps (a : StationId) (s : State) : Keeps s (pollEnded a s) :=
  .trans (.trans (.ite (fun _ => roundEnd_keeps s) fun _ => endClaim_keeps s) (finish_keeps _)) (sendPoll_keeps ..)

/-! ### Replies and misses (R110 to R117) -/

theorem claimIfChanged_keeps (a : StationId) (was : Option Nat) (s : State) : Keeps s (claimIfChanged a was s) :=
  .ite (fun _ => .refl s) fun _ => capacityClaim_keeps ..

theorem miss_keeps (a : StationId) (s : State) : Keeps s (miss a s) := by
  unfold miss
  dsimp only
  refine .trans ?_ (claimIfChanged_keeps ..)
  refine .trans (setStation_keeps a _ s) (.ite (fun _ => .refl _) fun _ => .ite (fun _ => ?_) fun _ => ?_)
  · exact (journalise_keeps ..).trans (raise_keeps ..)
  · exact journalise_keeps ..

/-- The marks of the trays that report a leak. -/
theorem setReporting_keeps (v : Vector Bool 32) (s : State) : Keeps s { s with leak := { s.leak with reporting := v } } :=
  .aside rfl

theorem powerGoodReport_keeps (window : Option (SlotId × Nat)) (pg : Bool) (s : State) :
    Keeps s (powerGoodReport window pg s) := .mk fun hs => (powerGoodReport_steady window pg hs.table).keeps.sound hs

theorem trayHandOn_keeps (n : TrayId) (q : Poll) (pg fault ll : Bool) (demand : Nat) (s : State) :
    Keeps s (trayHandOn n q pg fault ll demand s) := by
  unfold trayHandOn
  dsimp only
  refine .trans (t := if ll then { s with leak := { s.leak with reporting := s.leak.reporting.set n true } } else s)
    (.ite (fun _ => setReporting_keeps _ s) fun _ => .refl s) ?_
  generalize (if ll then { s with leak := { s.leak with reporting := s.leak.reporting.set n true } } else s) = u
  split
  · exact .refl u
  · rename_i polled _ _
    refine .trans (t := if (fault && polled.keepsMarks) = true then endClaim (faultReport n polled u) else u)
      (.ite (fun _ => (faultReport_sinks n polled u).keeps.trans (endClaim_keeps _)) fun _ => .refl u) ?_
    generalize (if (fault && polled.keepsMarks) = true then endClaim (faultReport n polled u) else u) = v
    have h : Keeps v (if polled.keepsMarks = true then endClaim (selfRequest n polled demand v)
        else if (polled == .idle && decide (0 < demand)) = true then endClaim (selfStart n demand v) else v) :=
      .ite (fun h => (selfRequest_steady polled demand h).keeps.trans (endClaim_keeps _)) fun _ =>
        .ite (fun _ => (selfStart_steady n demand v).keeps.trans (endClaim_keeps _)) fun _ => .refl v
    refine h.trans ?_
    exact .ite (fun _ => (powerGoodReport_keeps ..).trans (endClaim_keeps _)) fun _ => .refl _

/-- The reply fields of a valid reply, with the entry of a station that is found. -/
def replyNoted (q : Poll) (reply : Reply) (s : State) : State :=
  let r := s.station q.address
  let u := s.setStation q.address { r with last := some reply, replied := true, misses := 0, presence := .present }
  if r.presence == .present then u
  else journalise .stationFound (some (.station q.address)) none (some (.number r.presence.code)) u

/-- What a valid reply hands on, to the tray or to the capacities. -/
def replyHandedOn (q : Poll) (reply : Reply) (was : Option Nat) (wasHeld : Bool) (s : State) : State :=
  if h : q.address.val < 32 then
    let lifted := liftedFrom wasHeld ⟨q.address.val, h⟩ s
    let s := match reply with
      | .tray pg f ll d => trayHandOn ⟨q.address.val, h⟩ q pg f ll d s
      | _ => s
    if lifted then holdLifted ⟨q.address.val, h⟩ s else s
  else claimIfChanged q.address was s

theorem takeReply_eq (q : Poll) (reply : Reply) (s : State) : takeReply q reply s =
    replyHandedOn q reply (s.station q.address).counted
      (if h : q.address.val < 32 then s.held ⟨q.address.val, h⟩ else false) (replyNoted q reply s) := rfl

theorem replyNoted_keeps (q : Poll) (reply : Reply) (s : State) : Keeps s (replyNoted q reply s) :=
  .ite (fun _ => setStation_keeps ..) fun _ => (setStation_keeps ..).trans (journalise_keeps ..)

theorem replyHandedOn_keeps (q : Poll) (reply : Reply) (was : Option Nat) (wasHeld : Bool) (s : State) :
    Keeps s (replyHandedOn q reply was wasHeld s) := by
  unfold replyHandedOn
  split
  · refine .trans ?_ (.ite (fun _ => (holdLifted_steady ..).keeps) fun _ => .refl _)
    split
    · exact trayHandOn_keeps ..
    · exact .refl _
  · exact claimIfChanged_keeps ..

theorem takeReply_keeps (q : Poll) (reply : Reply) (s : State) : Keeps s (takeReply q reply s) := by
  rw [takeReply_eq]
  exact (replyNoted_keeps q reply s).trans (replyHandedOn_keeps ..)

theorem emptyPoll_keeps (s : State) : Keeps s (emptyPoll s) := .aside rfl

theorem replyReceived_keeps (bytes : List Byte) (s : State) : Keeps s (replyReceived bytes s) := by
  unfold replyReceived
  split
  · dsimp only
    refine (emptyPoll_keeps s).trans (.trans ?_ (pollEnded_keeps _ _))
    split
    · exact takeReply_keeps ..
    · exact miss_keeps ..
  · exact .refl s

theorem replyTimedOut_keeps (s : State) : Keeps s (replyTimedOut s) := by
  unfold replyTimedOut
  split
  · exact ((emptyPoll_keeps s).trans (miss_keeps ..)).trans (pollEnded_keeps ..)
  · exact .refl s

/-! ### Zones and the census close (R93 to R99, R125) -/

theorem enterLeak_keeps (z : ZoneId) (s : State) : Keeps s (enterLeak z s).1 := by
  unfold enterLeak
  dsimp only
  exact ((setZone_keeps z _ s).trans (setLatches_keeps z true _)).trans
    (Sinks.foldl (isolateIfInZone_sinks z) allTrays _).keeps

theorem countWet_keeps (z : ZoneId) (source : LeakSource) (s : State) : Keeps s (countWet z source s) := by
  unfold countWet
  dsimp only
  refine .trans (setZone_keeps z _ s) (.ite (fun _ => ?_) fun _ => .ite (fun _ => .refl _) fun _ => ?_)
  · exact ((enterLeak_keeps z _).trans (journalise_keeps ..)).trans (raise_keeps ..)
  · exact (setZone_keeps z _ _).trans ((journalise_keeps ..).trans (raise_keeps ..))

theorem becomeOpen_keeps (z : ZoneId) (s : State) : Keeps s (becomeOpen z s) :=
  (setZone_keeps z _ s).trans (.ite (fun _ => .refl _) fun _ => (journalise_keeps ..).trans (raise_keeps ..))

theorem holdLifted_if_keeps (s : State) (n : TrayId) : Keeps s (if liftedFrom true n s then holdLifted n s else s) :=
  .ite (fun _ => (holdLifted_steady n s).keeps) fun _ => .refl s

theorem becomeDry_keeps (z : ZoneId) (s : State) : Keeps s (becomeDry z s) := by
  unfold becomeDry
  refine (setZone_keeps z { s.zone z with state := .dry, wetCount := 0 } s).trans (.ite (fun _ => .refl _) fun _ => ?_)
  exact (journalise_keeps ..).trans (.foldl holdLifted_if_keeps _ _)

theorem zoneTransition_keeps (cls : ZoneClass) (source : LeakSource) (z : ZoneId) (s : State) :
    Keeps s (zoneTransition cls source z s) := by
  unfold zoneTransition
  refine (setZone_keeps z _ s).trans (.ite (fun _ => .refl _) fun _ => ?_)
  cases cls with
  | wet => exact countWet_keeps ..
  | opened => exact .ite (fun _ => countWet_keeps ..) fun _ => becomeOpen_keeps ..
  | dry => exact becomeDry_keeps ..

theorem judgeZone_keeps (judged : Vector (Option (ZoneClass × LeakSource)) 8) (s : State) (z : ZoneId) :
    Keeps s (judgeZone judged s z) := by
  unfold judgeZone
  split
  · exact zoneTransition_keeps ..
  · exact .refl s

theorem setSense_keeps (x : Sense) (s : State) : Keeps s { s with sense := x } := .aside rfl

theorem leakClose_keeps (s : State) : Keeps s (leakClose s) := by
  have h := (setReporting_keeps (Vector.replicate 32 false) s).trans
    (Sinks.foldl (readMark_sinks s.leak.reporting) allTrays _).keeps
  unfold leakClose
  dsimp only
  generalize allTrays.foldl (readMark s.leak.reporting) _ = u at h ⊢
  exact (h.trans (setSense_keeps _ u)).trans (.foldl (judgeZone_keeps _) _ _)

theorem publishBank_keeps (s : State) : Keeps s (publishBank s) := .aside rfl

theorem holdupClose_keeps (s : State) : Keeps s (holdupClose s) :=
  .ite (fun _ => .ite (fun _ => enterDark_keeps ..) fun _ => .ite (fun _ => enterDark_keeps ..) fun _ => .refl s)
    fun _ => .refl s

theorem busCondition_keeps (outside was : Bool) (value : Nat) (entered ended : Reason) (write : Bool → State → State)
    (hw : ∀ v s, Keeps s (write v s)) (s : State) : Keeps s (busCondition outside was value entered ended write s) :=
  .ite (fun _ => .trans (.ite (fun _ => .refl s) fun _ => (hw ..).trans (journalise_keeps ..)) (raise_keeps ..))
    fun _ => .ite (fun _ => (hw ..).trans (journalise_keeps ..)) fun _ => .refl s

theorem busLimitClose_keeps (s : State) : Keeps s (busLimitClose s) := by
  have low (v : Bool) (s : State) : Keeps s (setLow v s) := setSense_keeps _ s
  have high (v : Bool) (s : State) : Keeps s (setHigh v s) := setSense_keeps _ s
  have highClose (s : State) : Keeps s (match s.busMax with
      | some v => busCondition (decide (s.sense.overLimit < v)) s.sense.high v .high .highCleared setHigh s
      | none => s) := by
    split
    · exact busCondition_keeps _ _ _ _ _ _ high s
    · exact .refl s
  unfold busLimitClose
  split
  · exact (busCondition_keeps _ _ _ _ _ _ low s).trans (highClose _)
  · exact highClose s

theorem censusClosed_keeps (s : State) : Keeps s (censusClosed s) :=
  (((((publishBank_keeps s).trans (leakClose_keeps _)).trans (holdupClose_keeps _)).trans (busLimitClose_keeps _)).trans
    (finish_keeps _)).trans (releaseAll_keeps _)

theorem censusExpired_keeps (s : State) : Keeps s (censusExpired s) := .ite (fun _ => .refl s) fun _ => censusClosed_keeps s

theorem converted_keeps (ch : ChannelId) (result : Option Half) (s : State) : Keeps s (converted ch result s) := by
  unfold converted
  dsimp only
  split <;> exact setSense_keeps _ s

/-! ### The timers and the pins (R64, R65, R76 to R86) -/

theorem paceExpired_keeps (s : State) : Keeps s (paceExpired s) := by
  unfold paceExpired
  refine .ite (fun _ => .refl s) fun _ => ?_
  split
  · exact ((setPace_steady none s).trans (opportunity_steady _)).keeps.trans (finish_keeps _)
  · exact ((setPace_steady _ s).trans (cadenceStart_steady _)).keeps.trans (finish_keeps _)

theorem windowExpired_keeps (j : SlotId) (s : State) : Keeps s (windowExpired j s) := by
  refine .ite (fun _ => .trans ⟨fun hs => ?_⟩ (finish_keeps _)) fun _ => .refl s
  exact (windowEnd_steady j hs.table.collections).keeps.sound hs

theorem acLost_keeps (s : State) : Keeps s (acLost s) := by
  unfold acLost
  split
  · rename_i h
    have hn : s.isNormal = true := by unfold State.isNormal; rw [h]; rfl
    exact .ite (fun _ => (enterDark_keeps ..).trans (finish_keeps _)) fun _ => (enterHoldup_keeps hn).trans (finish_keeps _)
  · rename_i h
    refine .ite (fun _ => (enterDark_keeps ..).trans (finish_keeps _)) fun hc => ?_
    have hw : s.warmRegain = true := by unfold State.warmRegain; rw [h, Bool.eq_false_iff.mpr hc]; rfl
    exact (resumeHoldup_keeps hw).trans (finish_keeps _)
  · exact .refl s
  · exact .refl s

theorem acReturned_keeps (s : State) : Keeps s (acReturned s) := by
  unfold acReturned
  split
  · exact (enterWarmRegain_keeps ‹_›).trans (finish_keeps _)
  · exact (enterColdRegain_keeps ‹_›).trans (finish_keeps _)
  · exact .refl s
  · exact .refl s

theorem coreEvent_keeps {f : State → State} (s : State) (h : Keeps s (f s)) : Keeps s (coreEvent f s) :=
  .ite (fun _ => .refl s) fun _ => h

theorem setPins_keeps (u : Supply) (s : State) : Keeps s { s with sup := u } := .aside rfl

theorem pfailRise_keeps (s : State) : Keeps s (pfailRise s) :=
  .ite (fun _ => .refl s) fun _ => (setPins_keeps _ s).trans (coreEvent_keeps _ (acLost_keeps _))

theorem pfailFall_keeps (s : State) : Keeps s (pfailFall s) :=
  .ite (fun _ => (setPins_keeps _ s).trans (coreEvent_keeps _ (acReturned_keeps _))) fun _ => .refl s

/-- The qualification timer stops, and in warm REGAIN the rack may be marked qualified (R83). -/
theorem qualTimer_sound (hs : s.sound) (q : Bool) (hq : q = true → s.warmRegain = true) :
    (s.setHup { s.hup with qualTimer := none, qualified := q }).sound where
  table := Rebased.table (s := s) ⟨rfl, rfl, rfl, rfl, rfl⟩ hs.table
  standing := Rebased.standing (s := s) ⟨rfl, rfl, rfl, rfl, rfl⟩ hs.standing (fun h n => (hs.standing n).started h)
    fun h hb n => (hs.standing n).dark h hb
  poised := ⟨hs.poised.stage, hs.poised.tick, hs.poised.cold, nofun, hq, hs.poised.due, hs.poised.usable⟩
  budget := hs.budget

theorem qualificationExpired_keeps (s : State) : Keeps s (qualificationExpired s) := by
  refine ⟨fun hs => ?_⟩
  unfold qualificationExpired
  split
  · exact hs
  · rename_i ht
    have hreg : s.hup.state = .regain := hs.poised.qual (by
      cases e : s.hup.qualTimer <;> rw [e] at ht <;> first | rfl | exact absurd rfl ht)
    have hv : (s.setHup { s.hup with qualTimer := none }).sound := qualTimer_sound hs s.hup.qualified hs.poised.qualified
    dsimp only
    split
    · rename_i h
      refine (finish_keeps _).sound ?_
      rw [Bool.or_eq_true, decide_eq_true_eq] at h
      rcases h with h | h
      · exact (enterNormal_cold h).sound hv
      · exact enterNormal_sound hv.table hv.standing h
    · rename_i h
      rw [Bool.or_eq_true, not_or, Bool.not_eq_true] at h
      refine (journalise_keeps ..).sound (qualTimer_sound hs true fun _ => ?_)
      unfold State.warmRegain
      rw [hreg, show s.hup.cold = false from h.1]
      rfl

theorem stageTicked_keeps (s : State) : Keeps s (stageTicked s) := by
  refine .ite (fun _ => .refl s) fun ht => ?_
  have h : Keeps s (s.setHup { s.hup with timer := max (s.hup.timer - 1) (-32768), stageTick := some Config.stageTickMs }) := by
    have hst : s.hup.stageTick.isSome = true := by
      cases e : s.hup.stageTick <;> rw [e] at ht <;> first | rfl | exact absurd rfl ht
    refine .aside ?_
    simp only [State.frame, State.setHup, hst]
    rfl
  exact (h.trans (advanceStages_keeps 3 _)).trans (finish_keeps _)

end Sys2Proof.Machine
end

section
/-! SUPPORT. The requests keep a rack sound: SET_TRAY's rewrite with the passes that restore the budget, the record that
CLEAR_FAULT repairs, and the requests that write beside the rack (R23, R24, R25, R30, R33, R60). -/

namespace Sys2Proof.Machine

variable {s t u : State} {p : Port}

/-! ### How a request is taken -/

theorem raiseOverrun_keeps (p : Port) (s : State) : Keeps s (raiseOverrun p s) := setPort_keeps ..

theorem portTake_keeps (tag : Byte) (n : Bool) (body : State → State) (s : State) (hb : Keeps s (body s)) :
    Keeps s (portTake p tag n body s) := by
  unfold portTake
  exact .ite (fun _ => .refl s) fun _ => .ite (fun _ => raiseOverrun_keeps p s) fun _ =>
    .ite (fun _ => respond_keeps ..) fun _ => hb

theorem takeRequest_keeps (tag : Byte) (n : Bool) (body : State → State × Answer) (s : State) (hb : Keeps s (body s).1) :
    Keeps s (takeRequest p tag n body s) := portTake_keeps tag n _ s (hb.trans (respond_keeps ..))

theorem answerAfter_keeps (st : Status) (payload : State → List Byte) (h : Keeps s u) :
    Keeps s (answerAfter st payload u).1 := h.trans (finish_keeps u)

theorem setLease_keeps (p : Port) (l : Option Lease) (s : State) : Keeps s (setLease p l s) := setPort_keeps ..

theorem setStaging_keeps (g : Staging) (s : State) : Keeps s (setStaging g s) := .aside rfl

theorem discardStaging_keeps (p : Port) (r : Reason) (s : State) : Keeps s (discardStaging p r s) :=
  .ite (fun _ => (setStaging_keeps _ s).trans (journalise_keeps ..)) fun _ => .refl s

/-! ### The reads, the alerts and the leases -/

theorem statusRequest_keeps (tag part : Byte) (s : State) : Keeps s (statusRequest p tag part s) := by
  refine takeRequest_keeps _ _ _ s ?_
  split <;> exact .refl s

theorem trayRequest_keeps (tag tray : Byte) (s : State) : Keeps s (trayRequest p tag tray s) := by
  refine takeRequest_keeps _ _ _ s ?_
  split
  · exact answerAfter_keeps _ _ (checkRead_sinks ..).keeps
  · exact .refl s

theorem stationRequest_keeps (tag address : Byte) (s : State) : Keeps s (stationRequest p tag address s) := by
  refine takeRequest_keeps _ _ _ s ?_
  split <;> exact .refl s

theorem zoneRequest_keeps (tag zone : Byte) (s : State) : Keeps s (zoneRequest p tag zone s) := by
  refine takeRequest_keeps _ _ _ s ?_
  split
  · exact answerAfter_keeps _ _ (readAll_sinks s).keeps
  · exact .refl s

theorem planRequest_keeps (tag part : Byte) (s : State) : Keeps s (planRequest p tag part s) := by
  refine takeRequest_keeps _ _ _ s ?_
  dsimp only
  split
  · exact (reportEntries_steady s).keeps
  · exact .refl s
  · exact .refl s

theorem snapshotRequest_keeps (tag part : Byte) (s : State) : Keeps s (snapshotRequest p tag part s) := by
  refine takeRequest_keeps _ _ _ s ?_
  split <;> exact .refl s

theorem journalRequest_keeps (tag : Byte) (s : State) : Keeps s (journalRequest p tag s) :=
  takeRequest_keeps _ _ _ s (setPort_keeps ..)

theorem alertsRequest_keeps (tag : Byte) (s : State) : Keeps s (alertsRequest p tag s) := takeRequest_keeps _ _ _ s (.refl s)

theorem setAlertsRequest_keeps (tag : Byte) (enable urgent : Half) (s : State) :
    Keeps s (setAlertsRequest p tag enable urgent s) := takeRequest_keeps _ _ _ s (setPort_keeps ..)

theorem ackAlertsRequest_keeps (tag : Byte) (mask : Half) (s : State) : Keeps s (ackAlertsRequest p tag mask s) :=
  takeRequest_keeps _ _ _ s (setPort_keeps ..)

theorem claimLeaseRequest_keeps (tag : Byte) (term : Half) (s : State) : Keeps s (claimLeaseRequest p tag term s) := by
  refine takeRequest_keeps _ _ _ s ?_
  dsimp only
  split
  · exact .refl s
  · exact (setLease_keeps ..).trans (.ite (fun _ => journalise_keeps ..) fun _ => .refl _)

theorem renewLeaseRequest_keeps (tag : Byte) (s : State) : Keeps s (renewLeaseRequest p tag s) := by
  refine takeRequest_keeps _ _ _ s ?_
  split
  · exact .refl s
  · exact setLease_keeps ..

theorem dropLeaseRequest_keeps (tag : Byte) (s : State) : Keeps s (dropLeaseRequest p tag s) := by
  refine takeRequest_keeps _ _ _ s ?_
  dsimp only
  split
  · exact .refl s
  · exact ((setLease_keeps ..).trans (journalise_keeps ..)).trans (discardStaging_keeps ..)

theorem leaseLapse_keeps (s : State) : Keeps s (leaseLapse p s) :=
  .ite (fun _ => .refl s) fun _ => (((setLease_keeps ..).trans (journalise_keeps ..)).trans (raise_keeps ..)).trans
    (discardStaging_keeps ..)

/-! ### GRANT and RELEASE -/

theorem grantRequest_keeps (tag tray : Byte) (amount : Half) (rev park : Byte) (s : State) :
    Keeps s (grantRequest p tag tray amount rev park s) := by
  refine takeRequest_keeps _ _ _ s ?_
  dsimp only
  split
  · exact .refl s
  · split
    · exact .refl s
    · exact answerAfter_keeps _ _ (grantTaken_steady ..).keeps

theorem releaseRequest_keeps (tag tray rev : Byte) (s : State) : Keeps s (releaseRequest p tag tray rev s) := by
  refine takeRequest_keeps _ _ _ s ?_
  split
  · exact .refl s
  · split
    · exact .refl s
    · exact answerAfter_keeps _ _ (releaseTaken_sinks ..).keeps

/-! ### SET_TRAY -/

/-- A sound rack but for the budget. -/
structure State.unbudgeted (s : State) : Prop where
  table : s.tableSound
  standing : s.standing
  poised : s.poised

theorem Steady.unbudgeted (h : Steady s u) (hs : s.unbudgeted) : u.unbudgeted :=
  ⟨h.table hs.table, h.standing hs.table hs.standing, h.poised hs.poised⟩

theorem State.unbudgeted.sound (h : s.unbudgeted) (hb : s.budgetKept) : s.sound := ⟨h.table, h.standing, h.poised, hb⟩

theorem Runs.tableSound {w : Part → Bool} (h : Runs w s u) (hs : s.tableSound) : u.tableSound :=
  ⟨h.recordsLawful hs.lawful, h.committedSums hs.sums, h.collectionsAgree hs.collections⟩

/-- A rewritten record is one that the holdup state allows, since a rewrite starts and parks no tray (R23, R24). -/
theorem rewrite_allows {r : Tray} (c : TrayConfig) (b : Bool) (h : s.allows r) : s.allows (r.rewrite c b) := by
  have hst : ∀ st : TrayState, st ≠ .idle → st ≠ .isolated → r.state ≠ st → rewriteState r b ≠ st := by
    intro st h1 h2 h3
    rcases rewriteState_cases r b with e | ⟨e | e, _⟩ <;> rw [e]
    · exact h3
    · exact h1.symm
    · exact h2.symm
  refine ⟨fun hn => ⟨?_, ?_⟩, fun hn hb => ⟨?_, ?_⟩, fun hl => absurd hl Bool.false_ne_true⟩
  · exact hst .queued (by decide) (by decide) (h.started hn).1
  · exact hst .inrush (by decide) (by decide) (h.started hn).2
  · exact hst .run (by decide) (by decide) (h.dark hn hb).1
  · exact hst .parked (by decide) (by decide) (h.dark hn hb).2

/-- The rewrite of a sound rack's record leaves all but the budget sound. -/
theorem rewritten_unbudgeted (hs : s.sound) (n : TrayId) (c : TrayConfig) (b : Bool) :
    (s.putTray n ((s.tray n).rewrite c b)).unbudgeted where
  table := (Runs.rewritten (w := fun _ => true) n c b s rfl).tableSound hs.table
  standing m := by
    refine (allows_congr (s := s) (u := s.putTray n ((s.tray n).rewrite c b)) rfl).mpr ?_
    rw [putTray_tray]
    split
    · exact rewrite_allows c b (hs.standing n)
    · exact hs.standing m
  poised := poised_congr (s := s) rfl rfl hs.poised.usable hs.poised

/-- A rise that fits, or none, keeps the budget of a rewrite. -/
theorem rewritten_budget (hs : s.sound) (n : TrayId) (c : TrayConfig) (b : Bool)
    (h : s.isSettled = true → ((s.tray n).rewrite c b).commitment ≤ (s.tray n).commitment + s.headroom) :
    (s.putTray n ((s.tray n).rewrite c b)).budgetKept := by
  intro hm
  have hb := hs.budget hm
  have hle := commitment_le_committed hs.table n
  have hr := h hm
  show s.acct.committed - (s.tray n).commitment + ((s.tray n).rewrite c b).commitment ≤ s.acct.usable
  unfold State.headroom at hr
  omega

/-- The passes of SET_TRAY restore the budget of a locked tray whose rise was not tested, and keep it otherwise. -/
theorem setTrayPasses_sound {n : TrayId} {r : Tray} {c : TrayConfig} {wasHeld : Bool} (hs : s.unbudgeted)
    (hb : s.budgetKept ∨ (r.locked && (r.state == .queued || r.state == .inrush)) = true) :
    (setTrayPasses n r c wasHeld s).sound := by
  have lift (v : State) : Keeps v (if liftedFrom wasHeld n v then holdLifted n v else v) :=
    .ite (fun _ => (holdLifted_steady n v).keeps) fun _ => .refl v
  have fall (v : State) : Keeps v (if (r.rewrite c false).commitment < r.commitment then admissionDue v else v) :=
    .ite (fun _ => (admissionDue_steady v).keeps) fun _ => .refl v
  have sort : Steady s (if (r.locked || c.cls != r.cfg.cls) && (r.state == .parked || r.state.enabled) then resort s else s) :=
    .ite (fun _ => (resort_sinks s).toSteady) fun _ => .refl s
  unfold setTrayPasses
  dsimp only
  generalize (if (r.locked || c.cls != r.cfg.cls) && (r.state == .parked || r.state.enabled) then resort s else s) = v at sort ⊢
  have hv := sort.unbudgeted hs
  refine ((fall _).trans (lift _)).sound ?_
  split
  · exact shortfallIfDue_sound hv.table hv.standing hv.poised
  · rename_i hl
    exact hv.sound (sort.budget hs.table hs.standing (hb.resolve_right hl))

/-- The commitment of a rewrite, and what the checks of R23 have tested of its rise. -/
theorem setTrayCheck_rise {n : TrayId} {c : TrayConfig} (hl : (s.tray n).locked = false) (hc : setTrayCheck n c s = none)
    (hlaw : (s.tray n).lawful) (hset : s.isSettled = true) (b : Bool) :
    ((s.tray n).rewrite c b).commitment ≤ (s.tray n).commitment + s.headroom := by
  by_cases hw : (s.tray n).state = .queued ∨ (s.tray n).state = .inrush
  · have hcom : ((s.tray n).rewrite c b).commitment = Tray.commitFor { s.tray n with cfg := c } (s.tray n).state (s.tray n).grant := by
      show Tray.commitFor _ _ _ = _
      rcases hw with e | e <;> simp only [Tray.commitFor, e, hl, Bool.false_eq_true, if_false]
    have hm : s.acct.mode ≠ .recovering := by
      unfold State.isSettled at hset
      rw [eq_of_beq hset]
      decide
    unfold setTrayCheck at hc
    dsimp only at hc
    rw [← hcom] at hc
    by_cases hzone : c.zone ≠ (s.tray n).cfg.zone ∧ (s.tray n).state ≠ .idle ∧ (s.tray n).state ≠ .faulted
    · rw [if_pos hzone] at hc
      cases hc
    rw [if_neg hzone] at hc
    by_cases hrise : 0 < ((s.tray n).rewrite c b).commitment - (s.tray n).commitment
    · rw [if_pos ⟨hw, hrise⟩, if_neg hm] at hc
      have hf : s.fits (((s.tray n).rewrite c b).commitment - (s.tray n).commitment) = true := by
        by_contra hf
        rw [if_neg hf] at hc
        cases hc
      have := of_decide_eq_true hf
      omega
    · omega
  · rw [not_or] at hw
    rw [rewrite_commitment b hw.1 hw.2 hlaw]
    omega

/-- An accepted SET_TRAY keeps a rack sound, its rise tested or covered by the shortfall pass. -/
theorem setTrayTaken_keeps {n : TrayId} {c : TrayConfig}
    (h : (s.tray n).locked = true ∨ (s.tray n).locked = false ∧ setTrayCheck n c s = none) : Keeps s (setTrayTaken n c s) := by
  refine ⟨fun hs => ?_⟩
  have hnote : Steady s (if (s.tray n).overCap && !c.selfRequest then overCapCleared n s else s) :=
    .ite (fun _ => journalise_steady ..) fun _ => .refl s
  have hsame : (if (s.tray n).overCap && !c.selfRequest then overCapCleared n s else s).tray n = s.tray n ∧
      (if (s.tray n).overCap && !c.selfRequest then overCapCleared n s else s).headroom = s.headroom := by
    split <;> exact ⟨rfl, rfl⟩
  rw [setTrayTaken_eq]
  unfold setTrayRecord
  dsimp only
  generalize (if (s.tray n).overCap && !c.selfRequest then overCapCleared n s else s) = v at hnote hsame ⊢
  obtain ⟨htr, hhead⟩ := hsame
  have hv := hnote.keeps.sound hs
  rw [← htr]
  refine setTrayPasses_sound (rewritten_unbudgeted hv n c _) ?_
  by_cases hw : (s.tray n).state = .queued ∨ (s.tray n).state = .inrush
  · rcases h with hl | ⟨hl, hc⟩
    · refine Or.inr ?_
      rw [htr, hl]
      rcases hw with e | e <;> rw [e] <;> rfl
    · refine Or.inl (rewritten_budget hv n c _ fun hm => ?_)
      rw [htr, hhead]
      exact setTrayCheck_rise hl hc (hs.table.lawful n) (hnote.isSettled.symm.trans hm) _
  · rw [not_or] at hw
    refine Or.inl (rewritten_budget hv n c _ fun _ => ?_)
    rw [htr, rewrite_commitment _ hw.1 hw.2 (hs.table.lawful n)]
    exact Nat.le_add_right ..

theorem setTrayRequest_keeps (tag tray rev : Byte) (f : TrayFields) (s : State) :
    Keeps s (setTrayRequest p tag tray rev f s) := by
  refine takeRequest_keeps _ _ _ s ?_
  dsimp only
  split
  · rename_i n c _ _
    split
    · exact .refl s
    · refine .trans (checkRead_sinks n s).keeps ?_
      generalize checkRead n s = v
      split
      · exact .refl v
      · rename_i hc
        refine answerAfter_keeps _ _ (setTrayTaken_keeps ?_)
        cases hl : (v.tray n).locked
        · rw [hl, if_neg Bool.false_ne_true] at hc
          exact Or.inr ⟨rfl, hc⟩
        · exact Or.inl rfl
  · exact .refl s

/-! ### CLEAR_FAULT -/

theorem clearFaultTaken_keeps {n : TrayId} (h : (s.tray n).state = .faulted) : Keeps s (clearFaultTaken n s) := by
  have hst : (if s.zoneInLeak (s.tray n).cfg then TrayState.isolated else .idle) = .idle ∨
      (if s.zoneInLeak (s.tray n).cfg then TrayState.isolated else .idle) = .isolated := by
    split
    · exact Or.inr rfl
    · exact Or.inl rfl
  change Keeps s (s.putTray n ((s.tray n).repaired (if s.zoneInLeak (s.tray n).cfg then .isolated else .idle)))
  generalize (if s.zoneInLeak (s.tray n).cfg then TrayState.isolated else .idle) = st at hst ⊢
  refine (Steady.replace (Runs.repaired (w := fun _ => true) n st s h hst).tableSound rfl rfl
    (fun m => putTray_tray n m _ s) rfl (fun _ _ => ?_) fun _ _ _ _ => Or.inl (Nat.le_refl _)).keeps
  rcases hst with rfl | rfl
  · exact ⟨fun _ => ⟨nofun, nofun⟩, fun _ _ => ⟨nofun, nofun⟩, fun _ => by rintro (e | e) <;> cases e⟩
  · exact ⟨fun _ => ⟨nofun, nofun⟩, fun _ _ => ⟨nofun, nofun⟩, fun _ => by rintro (e | e) <;> cases e⟩

theorem clearFaultRequest_keeps (tag tray rev : Byte) (s : State) : Keeps s (clearFaultRequest p tag tray rev s) := by
  refine takeRequest_keeps _ _ _ s ?_
  dsimp only
  split
  · exact .refl s
  · rename_i n _
    split
    · exact .refl s
    · rename_i hc
      split
      · exact answerAfter_keeps _ _ (checkRead_sinks ..).keeps
      · rename_i hl
        rw [checkRead_unlocked hl]
        exact answerAfter_keeps _ _ (clearFaultTaken_keeps (clearFaultCheck_none hc).2.2)

/-! ### The plan and its staging -/

theorem planOpenRequest_keeps (tag rev : Byte) (s : State) : Keeps s (planOpenRequest p tag rev s) := by
  refine takeRequest_keeps _ _ _ s ?_
  dsimp only
  split
  · exact .refl s
  · split
    · exact .refl s
    · exact ((reportEntries_steady s).keeps.trans (setStaging_keeps ..)).trans (journalise_keeps ..)

theorem editStaging_keeps (tag : Byte) (f : Staging → Option Staging) (s : State) : Keeps s (editStaging p tag f s) := by
  refine takeRequest_keeps _ _ _ s ?_
  split
  · exact .refl s
  · split
    · exact .refl s
    · exact setStaging_keeps ..

theorem planPointRequest_keeps (tag x : Byte) (s : State) : Keeps s (planPointRequest p tag x s) := editStaging_keeps ..

theorem planPutRequest_keeps (tag x : Byte) (s : State) : Keeps s (planPutRequest p tag x s) := editStaging_keeps ..

theorem planLengthRequest_keeps (tag x : Byte) (s : State) : Keeps s (planLengthRequest p tag x s) := editStaging_keeps ..

theorem commitPlan_keeps (s : State) : Keeps s (commitPlan s) := .aside rfl

theorem commitTaken_keeps (p : Port) (s : State) : Keeps s (commitTaken p s) := by
  rw [commitTaken_eq]
  exact (((commitPlan_keeps s).trans (resort_sinks _).keeps).trans (setStaging_keeps _ _)).trans (journalise_keeps ..)

theorem planCommitRequest_keeps (tag : Byte) (s : State) : Keeps s (planCommitRequest p tag s) := by
  refine takeRequest_keeps _ _ _ s ?_
  split
  · exact .refl s
  · split
    · exact .refl s
    · exact .refl s
    · exact answerAfter_keeps _ _ (commitTaken_keeps p s)

theorem planAbortRequest_keeps (tag : Byte) (s : State) : Keeps s (planAbortRequest p tag s) := by
  refine takeRequest_keeps _ _ _ s ?_
  split
  · exact .refl s
  · exact discardStaging_keeps ..

/-! ### The settings -/

theorem shelfSet_keeps (r a : Bool) (s : State) : Keeps s (shelfSet r a s) := .aside rfl

theorem settingsEntry_keeps (p : Port) (k : Nat) (s : State) : Keeps s (settingsEntry p k s) := journalise_keeps ..

theorem shelfTaken_keeps (p : Port) (r a : Bool) (s : State) : Keeps s (shelfTaken p r a s) := by
  rw [shelfTaken_eq]
  refine .trans (.ite (fun _ => ?_) fun _ => shelfSet_keeps r a s) (settingsEntry_keeps ..)
  exact ((shelfSet_keeps r a s).trans (capacityClaim_keeps ..)).trans (endClaim_keeps _)

theorem setShelfRequest_keeps (tag red auto : Byte) (s : State) : Keeps s (setShelfRequest p tag red auto s) := by
  refine takeRequest_keeps _ _ _ s ?_
  split
  · exact answerAfter_keeps _ _ (shelfTaken_keeps ..)
  · exact .refl s

theorem limitsTaken_keeps (p : Port) (f : LimitFields) (s : State) : Keeps s (limitsTaken p f s) := by
  rw [limitsTaken_eq]
  refine .trans ?_ (settingsEntry_keeps ..)
  exact .aside rfl

theorem setLimitsRequest_keeps (tag : Byte) (f : LimitFields) (s : State) : Keeps s (setLimitsRequest p tag f s) := by
  refine takeRequest_keeps _ _ _ s ?_
  split
  · exact limitsTaken_keeps p f s
  · exact .refl s

theorem paceChanged_keeps (mode : PaceMode) (n : Nat) (s : State) : Keeps s (paceChanged mode n s) := by
  have pace (v : Option Nat) : Keeps s (s.setPace v) := (setPace_steady v s).keeps
  unfold paceChanged
  refine .ite (fun _ => ?_) fun _ => .ite (fun _ => .ite (fun _ => ?_) fun _ => pace _) fun _ => .refl s
  · cases mode
    · exact (pace none).trans (opportunity_steady _).keeps
    · exact pace _
  · exact (pace none).trans (opportunity_steady _).keeps

theorem timingSet_keeps (mode : PaceMode) (f : TimingFields) (s : State) : Keeps s (timingSet mode f s) := .aside rfl

theorem timingTaken_keeps (p : Port) (mode : PaceMode) (f : TimingFields) (s : State) : Keeps s (timingTaken p mode f s) := by
  have h := paceChanged_keeps mode f.interval.toNat s
  have timers : Keeps s (timingTimers mode f s) := by
    unfold timingTimers
    exact .ite (fun _ => h.trans (opportunity_steady _).keeps) fun _ => h
  rw [timingTaken_eq]
  exact (timers.trans (timingSet_keeps ..)).trans (settingsEntry_keeps ..)

theorem setTimingRequest_keeps (tag : Byte) (f : TimingFields) (s : State) : Keeps s (setTimingRequest p tag f s) := by
  refine takeRequest_keeps _ _ _ s ?_
  split
  · exact answerAfter_keeps _ _ (timingTaken_keeps ..)
  · exact .refl s

theorem startRackRequest_keeps (tag : Byte) (s : State) : Keeps s (startRackRequest p tag s) := by
  refine takeRequest_keeps _ _ _ s ?_
  dsimp only
  split
  · exact .refl s
  · rename_i hn
    split
    · exact .refl s
    · refine answerAfter_keeps _ _ ((setDue_keeps false false nofun).trans (planRun_steady false ?_).keeps)
      rw [Bool.not_eq_true', Bool.not_eq_false] at hn
      exact hn

theorem returnTrays_keeps (z : ZoneId) (s : State) : Keeps s (returnTrays z s) := by
  have h : Sinks s (allTrays.foldl (returnTray z false) s) := .foldl (returnTray_sinks z false) _ s
  unfold returnTrays
  refine .ite (fun _ => h.keeps.trans ?_) fun _ => h.keeps
  exact .foldl (fun s n => .ite (fun _ => (returnTray_sinks z true s n).keeps) fun _ => .refl s) _ _

theorem clearZoneEffect_keeps (p : Port) (z : ZoneId) (s : State) : Keeps s (clearZoneEffect p z s).1 := by
  have h : Keeps s (zoneCleared z s) := (setZone_keeps z _ s).trans (setLatches_keeps z false _)
  rw [clearZoneEffect_eq]
  exact (h.trans (returnTrays_keeps z _)).trans (journalise_keeps ..)

theorem clearZoneRequest_keeps (tag zone : Byte) (s : State) : Keeps s (clearZoneRequest p tag zone s) := by
  refine takeRequest_keeps _ _ _ s ?_
  dsimp only
  split
  · exact .refl s
  · split
    · exact answerAfter_keeps _ _ (clearZoneEffect_keeps ..)
    · exact .refl s

theorem clearTrapRequest_keeps (tag : Byte) (s : State) : Keeps s (clearTrapRequest p tag s) :=
  takeRequest_keeps _ _ _ s (.aside rfl)

/-! ### The store -/

theorem setStore_keeps (x : Store) (s : State) : Keeps s { s with store := x } := .aside rfl

theorem saveTaken_keeps (tag : Byte) (s : State) : Keeps s (saveTaken p tag s) := by
  have h : Keeps s (finish (readAll s)) := (readAll_sinks s).keeps.trans (finish_keeps _)
  unfold saveTaken
  dsimp only
  generalize finish (readAll s) = u at h ⊢
  exact (h.trans (setStore_keeps _ u)).trans (setPort_keeps ..)

theorem saveConfigRequest_keeps (tag : Byte) (s : State) : Keeps s (saveConfigRequest p tag s) :=
  portTake_keeps _ _ _ s (.ite (fun _ => respond_keeps ..) fun _ => saveTaken_keeps tag s)

theorem storeWritten_keeps (s : State) : Keeps s (storeWritten s) := by
  unfold storeWritten
  split
  · exact .refl s
  · exact (setStore_keeps _ s).trans (respond_keeps ..)

/-! ### Every command that is no supply or reset event -/

theorem runRequest_keeps (i : Instr) (s : State) : Keeps s (runRequest i s) := by
  cases i with
  | readStatus => exact statusRequest_keeps ..
  | readTray => exact trayRequest_keeps ..
  | readStation => exact stationRequest_keeps ..
  | readZone => exact zoneRequest_keeps ..
  | readPlan => exact planRequest_keeps ..
  | readSnapshot => exact snapshotRequest_keeps ..
  | readJournal => exact journalRequest_keeps ..
  | readAlerts => exact alertsRequest_keeps ..
  | setAlerts => exact setAlertsRequest_keeps ..
  | ackAlerts => exact ackAlertsRequest_keeps ..
  | claimLease => exact claimLeaseRequest_keeps ..
  | renewLease => exact renewLeaseRequest_keeps ..
  | dropLease => exact dropLeaseRequest_keeps ..
  | grant => exact grantRequest_keeps ..
  | release => exact releaseRequest_keeps ..
  | setTray => exact setTrayRequest_keeps ..
  | clearFault => exact clearFaultRequest_keeps ..
  | planOpen => exact planOpenRequest_keeps ..
  | planPoint => exact planPointRequest_keeps ..
  | planPut => exact planPutRequest_keeps ..
  | planLength => exact planLengthRequest_keeps ..
  | planCommit => exact planCommitRequest_keeps ..
  | planAbort => exact planAbortRequest_keeps ..
  | setShelf => exact setShelfRequest_keeps ..
  | setLimits => exact setLimitsRequest_keeps ..
  | setTiming => exact setTimingRequest_keeps ..
  | startRack => exact startRackRequest_keeps ..
  | clearZone => exact clearZoneRequest_keeps ..
  | clearTrap => exact clearTrapRequest_keeps ..
  | saveConfig => exact saveConfigRequest_keeps ..
  | _ => exact .refl s

theorem rawWrite_keeps (p : Port) (bytes : List Byte) (s : State) : Keeps s (rawWrite p bytes s) := by
  unfold rawWrite
  refine .ite (fun _ => .refl s) fun _ => .ite (fun _ => raiseOverrun_keeps p s) fun _ => .ite (fun _ => .refl s) fun _ => ?_
  split
  · exact respond_keeps ..
  · exact respond_keeps ..
  · exact runRequest_keeps ..

theorem exec_keepsSound {i : Instr} (h : exec i s = .next t) (hr : suppliesOrResets i = false) : Keeps s t := by
  have run {i : Instr} (h : exec i s = .next t) (he : exec i s = .next (runRequest i s)) : Keeps s t := by
    obtain rfl : runRequest i s = t := by injection he.symm.trans h
    exact runRequest_keeps i s
  cases i with
  | unknownRequest p bytes => injection h with h; exact h ▸ rawWrite_keeps p bytes s
  | writeRefusedExecuting p =>
    injection h with h
    exact h ▸ .ite (fun _ => raiseOverrun_keeps p s) fun _ => .refl s
  | storeWriteComplete => injection h with h; exact h ▸ storeWritten_keeps s
  | leaseLapsed p => injection h with h; exact h ▸ leaseLapse_keeps s
  | replyFrame bytes => injection h with h; exact h ▸ coreEvent_keeps s (replyReceived_keeps bytes s)
  | strayFrame bytes => injection h with h; exact h ▸ .refl s
  | replyTimeout => injection h with h; exact h ▸ coreEvent_keeps s (replyTimedOut_keeps s)
  | paceExpiry => injection h with h; exact h ▸ coreEvent_keeps s (paceExpired_keeps s)
  | windowExpiry j => injection h with h; exact h ▸ coreEvent_keeps s (windowExpired_keeps j s)
  | pfailAsserted => injection h with h; exact h ▸ pfailRise_keeps s
  | pfailDeasserted => injection h with h; exact h ▸ pfailFall_keeps s
  | qualificationExpiry => injection h with h; exact h ▸ coreEvent_keeps s (qualificationExpired_keeps s)
  | stageTick => injection h with h; exact h ▸ coreEvent_keeps s (stageTicked_keeps s)
  | conversion ch result => injection h with h; exact h ▸ coreEvent_keeps s (converted_keeps ch result s)
  | censusClose => injection h with h; exact h ▸ coreEvent_keeps s (censusExpired_keeps s)
  | vstbyRise | vcoreFall | vcoreRecovery | startDelayExpiry | resetNAsserted | resetNDeasserted | vstbyFall =>
    exact absurd hr (by decide)
  | _ => exact run h rfl

end Sys2Proof.Machine
end

section
/-! SUPPORT. A reset leaves a sound rack, and every step keeps one (R12, R29, R30, R73, R76, R89, R155, R160, R161). -/

namespace Sys2Proof.Machine

variable {s t u : State}

/-! ### A dormant rack -/

/-- With every tray IDLE and nothing committed a rack is sound when the Holdup Controller's record is. -/
theorem State.dormant.sound (h : s.dormant) (hp : s.poised) : s.sound where
  table := h.tableSound
  standing n := by
    have hi := h.idle n
    refine ⟨fun _ => ?_, fun _ _ => ?_, fun _ => ?_⟩ <;> rw [hi]
    · exact ⟨nofun, nofun⟩
    · exact ⟨nofun, nofun⟩
    · rintro (e | e) <;> cases e
  poised := hp
  budget _ := by
    rw [h.committed]
    exact Nat.zero_le _

theorem fresh_sound (pending : List Instr) (st : Store) (h : Hold) (u : Supply) (d : Nat) :
    (State.fresh pending st h u d).sound :=
  (fresh_dormant ..).sound ⟨rfl, rfl, nofun, nofun, nofun, nofun, rfl⟩

/-- The holdup record is one of the Holdup Controller's states, with no automatic run due. -/
structure Holdup.coherent (h : Holdup) : Prop where
  stage : h.stage.isSome = (h.state == .holdup || (h.state == .regain && !h.cold))
  tick : h.stageTick.isSome = (h.state == .holdup || (h.state == .regain && !h.cold))
  cold : h.cold = true → h.state = .regain
  qual : h.qualTimer.isSome = true → h.state = .regain
  qualified : h.qualified = true → (h.state == .regain && !h.cold) = true

theorem Holdup.coherent.poised (h : u.hup.coherent) (hd : u.seq.autoDue = false) (hu : u.usableAgrees) : u.poised :=
  ⟨h.stage, h.tick, h.cold, h.qual, h.qualified, fun e => absurd (hd.symm.trans e) Bool.false_ne_true, hu⟩

theorem powerOnStart_sound (s : State) : (powerOnStart s).sound := by
  refine (powerOnStart_dormant s).sound ?_
  have hl := powerOnStart_loadedAs s
  have hh := powerOnStart_hup s
  generalize powerOnStart s = u at hl hh ⊢
  refine Holdup.coherent.poised ?_ (by rw [hl.seq]; rfl) ?_
  · rw [hh]
    split
    · exact ⟨rfl, rfl, nofun, nofun, nofun⟩
    · exact ⟨rfl, rfl, fun _ => rfl, fun _ => rfl, nofun⟩
  · unfold State.usableAgrees
    rw [hl.acct]
    exact (usableFor_zero ..).symm

/-! ### The states of the trays after a warm restart -/

/-- A move that takes trays to ISOLATED at most. -/
def Isolates (s u : State) : Prop := ∀ n : TrayId, (u.tray n).state = (s.tray n).state ∨ (u.tray n).state = .isolated

theorem Isolates.of_trays (h : u.trays = s.trays) : Isolates s u := fun n => Or.inl (by rw [tray_congr h])

theorem Isolates.refl (s : State) : Isolates s s := .of_trays rfl

theorem Isolates.trans (h : Isolates s t) (h' : Isolates t u) : Isolates s u := fun n => by
  rcases h' n with e | e
  · rw [e]
    exact h n
  · exact Or.inr e

theorem Isolates.ite {c : Prop} [Decidable c] {a b : State} (ha : c → Isolates s a) (hb : ¬c → Isolates s b) :
    Isolates s (if c then a else b) := by
  split
  · exact ha ‹_›
  · exact hb ‹_›

theorem Isolates.foldl {α : Type} {f : State → α → State} (h : ∀ s a, Isolates s (f s a)) (l : List α) (s : State) :
    Isolates s (l.foldl f s) := by
  induction l generalizing s with
  | nil => exact .refl s
  | cons a l ih => exact (h s a).trans (ih _)

theorem isolate_isolates (z : ZoneId) (n : TrayId) (s : State) : Isolates s (isolate z n s) := fun k => by
  rw [isolate_tray]
  split
  · exact Or.inr rfl
  · exact Or.inl rfl

theorem lock_isolates (n : TrayId) (s : State) : Isolates s (s.setRecord n (s.tray n).lockedNow) := fun k => by
  rw [setRecord_tray]
  split
  · rename_i e
    rw [e]
    exact Or.inl rfl
  · exact Or.inl rfl

theorem pickLeakZone_isolates (e : Option ZoneId) (s : State) : Isolates s (pickLeakZone e s).2 := by
  unfold pickLeakZone
  split
  · exact .refl s
  · split
    · exact .refl s
    · exact .refl s
    · exact .of_trays rfl

theorem lockOne_isolates (e : Option ZoneId) (n : TrayId) (s : State) : Isolates s (lockOne e n s) := by
  have h : Isolates s (sortPark (s.setRecord n (s.tray n).lockedNow)) := (lock_isolates n s).trans (.of_trays rfl)
  have trapped (v : State) : Isolates v (trapFailure (.tray n) v) := .of_trays (by rw [trapFailure_eq])
  have entered (v : State) : Isolates v (raise .integrity (journalise .integrity (some (.tray n)) none none v)) := .of_trays rfl
  unfold lockOne
  refine .trans (.trans ?_ (trapped _)) (entered _)
  split
  · have h' := h.trans (pickLeakZone_isolates e _)
    split
    · rename_i z s' heq
      erw [heq] at h'
      exact h'.trans (isolate_isolates _ _ _)
    · rename_i s' heq
      erw [heq] at h'
      exact h'
  · exact h

theorem checkReadIn_isolates (e : Option ZoneId) (n : TrayId) (s : State) : Isolates s (checkReadIn e n s) := by
  have members (m : TrayState → Bool) (v : State) : Isolates v (testMembers e m v) :=
    .foldl (fun s n => .ite (fun _ => .ite (fun _ => lockOne_isolates e n s) fun _ => .refl s) fun _ => .refl s) _ v
  unfold checkReadIn
  refine .ite (fun _ => (lockOne_isolates e n s).trans ?_) fun _ => .refl s
  exact .ite (fun _ => members _ _) fun _ => .ite (fun _ => members _ _) fun _ => .refl _

theorem isolateIfInZone_isolates (z : ZoneId) (s : State) (n : TrayId) : Isolates s (isolateIfInZone z s n) :=
  (checkReadIn_isolates (some z) n s).trans (.ite (fun _ => isolate_isolates _ _ _) fun _ => .refl _)

theorem restoreLeak_isolates (s : State) (z : ZoneId) : Isolates s (restoreLeak s z) := by
  refine .ite (fun _ => ?_) fun _ => .refl s
  generalize ({ s.zone z with state := .leak, wetCount := 0, lastClass := none } : Zone) = r
  exact (Isolates.of_trays (u := s.setZone z r) rfl).trans (.foldl (isolateIfInZone_isolates z) allTrays _)

/-- After a warm restart every tray is IDLE, RUN or ISOLATED. -/
theorem warmLeaks_states (s : State) (n : TrayId) : ((warmLeaks s).tray n).state = .idle ∨
    ((warmLeaks s).tray n).state = .run ∨ ((warmLeaks s).tray n).state = .isolated := by
  have h : Isolates (warmAdopted s) (warmLeaks s) := .foldl restoreLeak_isolates allZones _
  rcases h n with e | e
  · rw [e]
    exact ((warmAdopted_adopting s).state n).imp_right Or.inl
  · exact Or.inr (Or.inr e)

/-! ### The end of a reset -/

/-- The holdup record that a warm restart chooses is one of the Holdup Controller's states, and no tray runs in DARK. -/
theorem warmStart_poised (s : State) : (warmStart s).poised ∧
    ((warmStart s).isNormal = false → (warmStart s).onBattery = false → ∀ n, ((warmStart s).tray n).state ≠ .run) := by
  have hu := warmStart_setUp s
  obtain ⟨hhup, hdue⟩ := warmLeaks_holdup s
  obtain ⟨hnormal, hdark, hholdup⟩ := chooseHoldup_cases (warmLeaks s)
  generalize warmLeaks s = v at hu hhup hdue hnormal hdark hholdup
  generalize warmStart s = u at hu ⊢
  have ht (n : TrayId) : u.tray n = v.tray n := tray_congr hu.trays n
  have husable : u.usableAgrees := by
    unfold State.usableAgrees
    rw [hu.acct]
  have poised (h : u.hup.coherent) : u.poised := h.poised (by rw [hu.seq, hdue]; rfl) husable
  cases hp : v.sup.pfailAsserted with
  | false =>
    have hh := hu.hup.trans (hnormal hp)
    rw [hhup] at hh
    refine ⟨poised (by rw [hh]; exact ⟨rfl, rfl, nofun, nofun, nofun⟩), fun hn => ?_⟩
    unfold State.isNormal at hn
    rw [hh] at hn
    cases hn
  | true =>
    by_cases hr : v.runCount = 0
    · have hh := hu.hup.trans (hdark hp hr)
      rw [hhup] at hh
      exact ⟨poised (by rw [hh]; exact ⟨rfl, rfl, nofun, nofun, nofun⟩),
        fun _ _ n => by rw [ht]; exact (runCount_eq_zero v).mp hr n⟩
    · have hh := hu.hup.trans (hholdup hp hr)
      unfold beginEpisode at hh
      dsimp only [State.setHup] at hh
      rw [hhup] at hh
      refine ⟨poised (by rw [hh]; exact ⟨rfl, rfl, nofun, nofun, nofun⟩), fun _ hb => ?_⟩
      unfold State.onBattery at hb
      rw [hh] at hb
      cases hb

theorem warmStart_sound (s : State) : (warmStart s).sound := by
  obtain ⟨hpoised, hrun⟩ := warmStart_poised s
  have hmode := (warmStart_begins s).1
  refine ⟨warmStart_tableSound s, fun n => ?_, hpoised, fun hm => ?_⟩
  · have hst : ((warmStart s).tray n).state = .idle ∨ ((warmStart s).tray n).state = .run ∨
        ((warmStart s).tray n).state = .isolated := by
      rw [tray_congr (warmStart_setUp s).trays]
      exact warmLeaks_states s n
    have ne {st : TrayState} (h1 : st ≠ .idle) (h2 : st ≠ .run) (h3 : st ≠ .isolated) : ((warmStart s).tray n).state ≠ st := by
      rcases hst with e | e | e <;> rw [e]
      · exact h1.symm
      · exact h2.symm
      · exact h3.symm
    have hq := ne (st := .queued) nofun nofun nofun
    have hi := ne (st := .inrush) nofun nofun nofun
    exact ⟨fun _ => ⟨hq, hi⟩, fun hn hb => ⟨hrun hn hb n, ne nofun nofun nofun⟩, fun _ h => (h.elim hq hi).elim⟩
  · unfold State.isSettled at hm
    rw [hmode] at hm
    cases hm

theorem endReset_sound (s : State) : (endReset s).sound := by
  unfold endReset
  split
  · exact powerOnStart_sound s
  · exact warmStart_sound s

theorem resets_keeps (h : Pinned s t ∨ Stopped s t ∨ Restarted s t) : Keeps s t := by
  rcases h with ⟨u, c, rfl, _, _⟩ | ⟨st, h, u, rfl, _, _⟩ | ⟨v, _, _, _, rfl⟩
  · exact .aside rfl
  · exact ⟨fun _ => fresh_sound ..⟩
  · exact ⟨fun _ => endReset_sound v⟩

/-! ### One step -/

theorem tickTimer_isSome (v : Option Nat) : (tickTimer v).isSome = v.isSome := by
  cases v <;> rfl

theorem passMillisecond_keeps (s : State) : Keeps s (passMillisecond s) := by
  refine .aside ?_
  unfold State.frame
  rw [passMillisecond_slotTrays]
  show (_, _, _, _, (_, _, _, _, (tickTimer s.hup.stageTick).isSome, (tickTimer s.hup.qualTimer).isSome), _) = _
  rw [tickTimer_isSome, tickTimer_isSome]
  rfl

/-- Settles O59: the steady moves stay within the budget, each transition of the Holdup Controller replaces its record and usable
capacity together, and the passes of the claims, the rounds and SET_TRAY shed what no longer fits. -/
theorem everyStepKeepsTheBudget : Obligations.EveryStepKeepsTheBudget := by
  intro s t hs h
  rw [rackSound_iff] at hs ⊢
  refine step_keeps (P := State.sound) (fun s l hs => ?_) (fun i s t h hs => ?_) (fun s => (passMillisecond_keeps s).sound) hs h
  · exact (Keeps.aside (s := s) (u := { s with pending := l }) rfl).sound hs
  · cases hi : suppliesOrResets i
    · exact (exec_keepsSound h hi).sound hs
    · exact (resets_keeps (exec_resets h hi)).sound hs

end Sys2Proof.Machine
end

section
/-! SUPPORT. GRANT's checks, and GRANT on an IDLE and on a PARKED tray, at a leased port (R36, R37, R39, R40, R49, R50). -/

namespace Sys2Proof.Machine

variable {s : State} {p : Port} {t : TrayId} {tag b : Byte} {amount : Half} {rev park : Byte}

/-! ### A switch, the queue's tail, and the end of an event -/

/-- A byte that names neither off nor on (R163). -/
theorem onOff_none {b : Byte} : onOff b = none ↔ 1 < b.toNat := by
  unfold onOff
  by_cases h0 : b = 0
  · subst h0
    decide
  · by_cases h1 : b = 1
    · subst h1
      decide
    · have hne0 : b.toNat ≠ 0 := fun e => h0 (BitVec.eq_of_toNat_eq e)
      have hne1 : b.toNat ≠ 1 := fun e => h1 (BitVec.eq_of_toNat_eq e)
      simp only [h0, h1, if_false, true_iff]
      omega

/-- The Sequencer after a tray has joined the Start Queue: CADENCE starts the pace timer at an empty queue (R65). -/
def State.seqJoined (s : State) : Sequencer :=
  { s.seq with paceTimer :=
      if s.seq.paceMode = .cadence ∧ s.queue = [] then some s.seq.paceInterval else s.seq.paceTimer }

/-- A tray joins the Start Queue's tail, and a start opportunity is owed (R13, R64, R65). -/
theorem enqueue_eq (t : TrayId) (s : State) : enqueue t s = { s with
    queue := s.queue ++ [t], seq := s.seqJoined
    agenda := { s.agenda with opportunity := true } } := by
  unfold enqueue State.seqJoined
  by_cases hc : s.seq.paceMode = .cadence ∧ s.queue = []
  · have hb : (s.seq.paceMode == .cadence && s.queue.isEmpty) = true := by simp [hc.1, hc.2]
    simp only [hb, if_true, if_pos hc]
    rfl
  · have hb : (s.seq.paceMode == .cadence && s.queue.isEmpty) = false := by
      simpa [Bool.and_eq_false_iff, Decidable.not_and_iff_or_not] using hc
    simp only [hb, Bool.false_eq_true, if_false, if_neg hc]
    rfl

/-- An event ends with the end of its claim when that reports no start opportunity, or leaves no pass due while starts wait. -/
theorem finish_of_endClaim (h : (endClaim s).agenda.opportunity = true →
    (endClaim s).startsWait ∧ (endClaim s).agenda.admission = false) : finish s = (endClaim s).setAgenda .none := by
  have hr : ∃ a, finishRounds 33 s = (endClaim s).setAgenda a := by
    unfold finishRounds
    dsimp only
    by_cases ho : (endClaim s).agenda.opportunity = true
    · obtain ⟨hs, ha⟩ := h ho
      rw [if_pos ho, offerStart_waiting hs]
      exact ⟨_, if_neg fun e => Bool.false_ne_true (ha.symm.trans e)⟩
    · rw [if_neg ho]
      exact ⟨_, (setAgenda_self _).symm⟩
  obtain ⟨a, ha⟩ := hr
  rw [finish, ha, setAgenda_setAgenda]

/-! ### The checks of GRANT -/

/-- GRANT on a tray that a check refuses answers with the tray as it stands. -/
theorem grant_refused {st : Status} (h : s.leased p) (ht : trayOf b = some t) (hc : grantCheck t amount rev park s = some st) :
    exec (.grant p tag b amount rev park) s = .next (respond p tag ⟨st, s.grantPayload t⟩ s) :=
  next_leased h tag (by simp only [ht, hc])

/-- GRANT that passes the checks is taken by the tray's state, and its event ended. -/
theorem grant_passed {v w : State} {st : Status} (h : s.leased p) (ht : trayOf b = some t)
    (hc : grantCheck t amount rev park s = none) (hv : grantTaken t amount.toNat (park == 1) s = (v, st)) (hw : finish v = w) :
    exec (.grant p tag b amount rev park) s = .next (respond p tag ⟨st, w.grantPayload t⟩ w) := by
  refine next_leased h tag ?_
  simp only [ht, hc, hv, answerAfter, hw]

/-- Settles O17: each refusal is the first check of the chain that fails. -/
theorem grantChecksInOrder : Obligations.GrantChecksInOrder := by
  intro s p tag b amount rev park h
  refine ⟨fun hb => next_leased h tag (by simp only [trayOf_none hb]; rfl), fun t ht => ?_⟩
  have chain : grantCheck t amount rev park s = if amount = 0 ∨ 4095 < amount.toNat ∨ 1 < park.toNat then some .range
      else if rev ≠ (s.tray t).revision then some .stale
      else if (s.tray t).locked = true then some .locked
      else if (s.tray t).state = .isolated ∨ (s.tray t).state = .faulted then some .state
      else if s.acct.mode = .recovering ∧ ¬((s.tray t).state = .run ∧ amount.toNat ≤ (s.tray t).grant) then some .recovering
      else none := by
    simp only [grantCheck, Option.isNone_iff_eq_none, onOff_none]
  dsimp only
  split
  · rename_i h1
    exact grant_refused h ht (chain.trans (if_pos h1))
  · rename_i h1
    have chain := chain.trans (if_neg h1)
    split
    · rename_i h2
      exact grant_refused h ht (chain.trans (if_pos h2))
    · rename_i h2
      have chain := chain.trans (if_neg h2)
      split
      · rename_i h3
        exact grant_refused h ht (chain.trans (if_pos h3))
      · rename_i h3
        have chain := chain.trans (if_neg h3)
        split
        · rename_i h4
          exact grant_refused h ht (chain.trans (if_pos h4))
        · rename_i h4
          intro hm hr
          refine grant_refused h ht ((chain.trans (if_neg h4)).trans (if_pos ⟨hm, ?_⟩))
          rintro ⟨hrun, hle⟩
          rcases hr with hr | hr
          · exact hr hrun
          · exact absurd hle (Nat.not_le.mpr hr)

/-! ### GRANT on an IDLE tray -/

theorem grantTaken_idle {g : Nat} {k : Bool} (hi : (s.tray t).state = .idle) : grantTaken t g k s = grantIdle t g k s := by
  unfold grantTaken
  rw [hi]

/-- GRANT on an unlocked IDLE tray in NORMAL whose part passes its check queues it, parks it or is refused. -/
theorem grantIdle_normal {g : Nat} {k : Bool} (hn : s.isNormal = true) (hf : (s.tray t).failsCheck = false)
    (hl : (s.tray t).locked = false) : grantIdle t g k s =
      if max (s.cfg t).inrush g ≤ s.headroom then (grantEntry t g .queued (move t .queued g none s), .ok)
      else if k = true then (grantEntry t g .parked (move t .parked g none s), .ok)
      else (s, .noHeadroom) := by
  unfold grantIdle
  simp only [hn, checkRead_passes hf, hl, commitFor_queued hl, State.fits, Bool.not_true, Bool.false_eq_true, if_false,
    decide_eq_true_eq]

/-- The record of an unlocked IDLE tray, its mark clear, that is queued or parked by a GRANT. -/
def Tray.granted (r : Tray) (st : TrayState) (g c : Nat) : Tray :=
  { r with
    state := st, grant := g, commitment := c, revision := r.revision + 1, faultCause := none, adopted := false
    deferred := r.deferred && st.keepsMarks }

theorem granted_queued (r : Tray) (g c : Nat) : r.granted .queued g c = { r with
    state := .queued, grant := g, commitment := c, revision := r.revision + 1, faultCause := none, adopted := false } := by
  simp [Tray.granted, TrayState.keepsMarks]

theorem granted_parked (r : Tray) (g c : Nat) : r.granted .parked g c = { r with
    state := .parked, grant := g, commitment := c, revision := r.revision + 1, faultCause := none, adopted := false
    deferred := false } := by
  simp [Tray.granted, TrayState.keepsMarks]

theorem enter_granted {r : Tray} {st : TrayState} (hr : st ≠ .run) (ho : r.overCap = false) (g : Nat) :
    r.enter st g none = r.granted st g (r.commitFor st g) := by
  have hb : (st == .run) = false := by simpa using hr
  simp [Tray.enter, Tray.granted, ho, hb]

/-- An IDLE tray with its over_cap mark clear that is queued: its record, and its place at the tail. -/
theorem move_queued_claimed (hi : (s.tray t).state = .idle) (ho : (s.tray t).overCap = false) (g : Nat) :
    (move t .queued g none s).setAgenda s.agenda =
      { s.claimed t ((s.tray t).granted .queued g ((s.tray t).commitFor .queued g)) with
        queue := s.queue ++ [t], seq := s.seqJoined } := by
  have hn : s.noted t .queued = s := by simp [State.noted, TrayState.keepsMarks]
  rw [move_queued_eq, moveBare_of_idle hi, hn, enter_granted (by decide) ho]
  exact congrArg (State.setAgenda s.agenda) (enqueue_eq t _)

/-- An IDLE tray with its over_cap mark clear that is parked while every code passes: its record, and its place in the list. -/
theorem move_parked_claimed (hi : (s.tray t).state = .idle) (ho : (s.tray t).overCap = false) (hcodes : s.codesPass) (g : Nat) :
    (move t .parked g none s).setAgenda s.agenda =
      { s.claimed t ((s.tray t).granted .parked g 0) with park := insertBy s.parkBefore t s.park } := by
  have hn : s.noted t .parked = s := by simp [State.noted, ho]
  have hpass : (moveBare t .parked g none s).codesPass := fun m => by
    rw [moveBare_tray]
    split
    · exact hcodes t
    · exact hcodes m
  rw [move_passes hpass, moveBare_of_idle hi, hn, enter_granted (by decide) ho]
  have hb : (s.putTray t ((s.tray t).granted .parked g ((s.tray t).commitFor .parked g))).parkBefore = s.parkBefore :=
    parkBefore_putTray rfl
  simp only [joinCollection, hb]
  rfl

/-- The end of a GRANT's event that owes no admission pass clears what is owed beneath the entry. -/
theorem finish_grantEntry (g : Nat) (why : Reason) (hs : s.startsWait) (ha : s.agenda.admission = false)
    (hw : s.warmRegain = false) : finish (grantEntry t g why s) = grantEntry t g why (s.setAgenda .none) :=
  finish_undue (s := grantEntry t g why s) hs ha hw

/-- The event of a GRANT that queues an IDLE tray ends with the tray's claim and the entry. -/
theorem finish_grant_queued (h : s.agenda = Agenda.none) (hi : (s.tray t).state = .idle) (ho : (s.tray t).overCap = false)
    (hl : (s.tray t).locked = false) (hs : s.startsWait) (hn : s.isNormal = true) {g : Nat}
    (hfit : max (s.cfg t).inrush g ≤ s.headroom) : finish (grantEntry t g .queued (move t .queued g none s)) =
      grantEntry t g .queued { s.claimed t ((s.tray t).granted .queued g (max (s.cfg t).inrush g)) with
        queue := s.queue ++ [t], seq := s.seqJoined } := by
  obtain ⟨_, _, _, hown, hwait⟩ := move_queued_of_idle hi g
  have hfits : s.fits ((s.tray t).commitFor .queued g) = true := decide_eq_true (commitFor_queued hl g ▸ hfit)
  have hnormal := (move_queued_steady hn hl hfits).isNormal.trans hn
  have hmove := move_queued_claimed hi ho g
  rw [commitFor_queued hl, h] at hmove
  rw [finish_grantEntry g .queued (hwait hs) (hown.trans (by rw [h]; rfl)) (warmRegain_normal hnormal), hmove]

/-- The event of a GRANT that parks an IDLE tray ends with the tray's claim and the entry. -/
theorem finish_grant_parked (h : s.agenda = Agenda.none) (hi : (s.tray t).state = .idle) (ho : (s.tray t).overCap = false)
    (hcodes : s.codesPass) (hs : s.startsWait) (hn : s.isNormal = true) (g : Nat) :
    finish (grantEntry t g .parked (move t .parked g none s)) =
      grantEntry t g .parked { s.claimed t ((s.tray t).granted .parked g 0) with park := insertBy s.parkBefore t s.park } := by
  obtain ⟨_, _, _, hown, hseq⟩ := move_parked_of_idle hi g hcodes
  have hnormal := (move_parked_sinks (n := t) g (Or.inl (Or.inl hn))).isNormal.trans hn
  have hwait : (move t .parked g none s).startsWait := by
    unfold State.startsWait
    rw [hseq]
    exact hs
  have hmove := move_parked_claimed hi ho hcodes g
  rw [h] at hmove
  rw [finish_grantEntry g .parked hwait (hown.trans (by rw [h]; rfl)) (warmRegain_normal hnormal), hmove]

/-- Settles O18: the three tests of GRANT on an IDLE tray, and a claim that owes no pass. -/
theorem grantOnAnIdleTray : Obligations.GrantOnAnIdleTray := by
  intro s p tag b amount rev park t h ht hc hi ho hcodes hs
  have hl := grantCheck_unlocked hc
  have owed := h.1.1.2
  have taken := grantTaken_idle (g := amount.toNat) (k := park == 1) hi
  have normal (hn : s.isNormal = true) := taken.trans (grantIdle_normal hn (hcodes t) hl)
  refine ⟨fun hn => ?_, fun hn hfit => ?_, fun hn hfit hp => ?_, fun hn hfit hp => ?_⟩
  · have hv := taken.trans (if_pos (by simp [hn]))
    exact grant_passed h ht hc hv (finish_none owed)
  · refine grant_passed h ht hc ((normal hn).trans (if_pos hfit)) ?_
    rw [finish_grant_queued owed hi ho hl hs hn hfit, granted_queued]
    rfl
  · refine grant_passed h ht hc ((normal hn).trans ((if_neg (Nat.not_le.mpr hfit)).trans (if_pos (by simp [hp])))) ?_
    rw [finish_grant_parked owed hi ho hcodes hs hn, granted_parked]
  · have hv := (normal hn).trans ((if_neg (Nat.not_le.mpr hfit)).trans (if_neg (by simp [hp])))
    exact grant_passed h ht hc hv (finish_none owed)

/-! ### GRANT on a PARKED tray -/

/-- An admission pass passes over the held trays (R50). -/
theorem admissionWalk_held {l : List TrayId} (h : ∀ n ∈ l, s.held n = true) : admissionWalk l s = s := by
  induction l with
  | nil => rfl
  | cons n l ih =>
    unfold admissionWalk
    rw [if_pos (by rw [h n List.mem_cons_self, Bool.or_true])]
    exact ih fun m hm => h m (List.mem_cons_of_mem n hm)

/-- What the admission pass at the end of a claim leaves, but for what is then owed. -/
def admitted (s : State) : State :=
  admissionWalk s.park (s.setAgenda { s.agenda with admission := false, shortfall := false })

/-- The end of a claim in NORMAL and SETTLED that calls for an admission pass is that pass. -/
theorem endClaim_due (hd : s.agenda.admission = true) (hsf : s.agenda.shortfall = false) (hn : s.isNormal = true)
    (hm : s.isSettled = true) :
    ∃ f, endClaim s = (admitted s).setAgenda { (admitted s).agenda with admission := false, fell := f } := by
  have hallow : (s.isNormal && s.isSettled) = true := by rw [hn, hm]; rfl
  have hpass : admissionIfAllowed (s.setAgenda { s.agenda with admission := false, shortfall := false }) =
      (admitted s).setAgenda { (admitted s).agenda with admission := false } := if_pos hallow
  have hwalk := admissionWalk_steady s.park (s.setAgenda { s.agenda with admission := false, shortfall := false }) hn
  have hnormal : (admitted s).isNormal = true := hwalk.isNormal.trans hn
  unfold endClaim
  simp only [hd, hsf, Bool.not_false, Bool.and_true, if_true, hpass]
  split
  · exact ⟨false, regainTest_normal hnormal⟩
  · exact ⟨(admitted s).agenda.fell, rfl⟩

/-- A PARKED tray alone in the walk, not held and unlocked, that passes its check and fits is queued at its grant (R50). -/
theorem admissionWalk_single (hp : (s.tray t).state = .parked) (hh : s.held t = false) (hf : (s.tray t).failsCheck = false)
    (hl : (s.tray t).locked = false) (hfit : max (s.cfg t).inrush (s.tray t).grant ≤ s.headroom) :
    admissionWalk [t] s = journalise .admitted (some (.tray t)) (some (max (s.cfg t).inrush (s.tray t).grant)) none
      (move t .queued (s.tray t).grant none s) := by
  simp only [admissionWalk, hp, hh, checkRead_passes hf, hl, commitFor_queued hl, State.fits, hfit, bne_self_eq_false,
    Bool.or_self, Bool.false_eq_true, if_false, decide_true, if_true]

/-- A PARKED tray that is queued leaves the Park List for the tail of the Start Queue. -/
theorem move_queued_of_parked (hp : (s.tray t).state = .parked) (g : Nat) : move t .queued g none s =
    enqueue t ({ s with park := s.park.filter (· != t) }.putTray t ((s.tray t).enter .queued g none)) := by
  have hb : ((s.tray t).overCap && !TrayState.queued.keepsMarks) = false := Bool.and_false _
  have hleave : leaveCollection t s = { s with park := s.park.filter (· != t) } := by
    unfold leaveCollection
    rw [hp]
  rw [move_queued_eq]
  unfold moveBare
  simp only [hb, Bool.false_eq_true, if_false, hleave]
  rfl

/-- A PARKED tray's record with its grant replaced. -/
def Tray.regranted (r : Tray) (g : Nat) : Tray :=
  { r with grant := g, commitment := 0, revision := r.revision + 1, deferred := false, adopted := false }

/-- GRANT on a PARKED tray before the end of its event. -/
def parkedGrant (t : TrayId) (g : Nat) (s : State) : State :=
  admissionDue (grantEntry t g .resized (s.putTray t ((s.tray t).regranted g)))

theorem grantTaken_parked {g : Nat} {k : Bool} (hp : (s.tray t).state = .parked) :
    grantTaken t g k s = (parkedGrant t g s, .ok) := by
  unfold grantTaken
  rw [hp]
  simp only [grantParked, parkedGrant, resizeGrant, Tray.regranted, hp, Tray.commitFor, Bool.and_false]

theorem parkedGrant_tray (n : TrayId) (g : Nat) : (parkedGrant t g s).tray n = if n = t then (s.tray t).regranted g else s.tray n :=
  putTray_tray t n _ s

theorem parkedGrant_held (n : TrayId) (g : Nat) : (parkedGrant t g s).held n = s.held n := by
  refine held_congr (s := s) (u := parkedGrant t g s) rfl rfl ?_ ?_ <;> rw [parkedGrant_tray] <;> split <;> subst_vars <;> rfl

/-- The new grant is all that changes when the pass does not run or passes over the tray, which is alone in the list and held. -/
theorem finish_parkedGrant_stays (ho : s.agenda = Agenda.none) (hw : s.warmRegain = false) (g : Nat)
    (h : s.isNormal = false ∨ s.park = [t] ∧ s.held t = true) : finish (parkedGrant t g s) =
      grantEntry t g .resized (s.claimed t ((s.tray t).regranted g)) := by
  have hclear : (parkedGrant t g s).setAgenda .none = grantEntry t g .resized (s.claimed t ((s.tray t).regranted g)) := by
    rw [← putTray_owed ho]
    rfl
  have hopp : (parkedGrant t g s).agenda.opportunity = false := congrArg Agenda.opportunity ho
  by_cases hidle : s.isNormal = false ∨ s.isSettled = false
  · have ha : (parkedGrant t g s).nothingToAdmit := by
      rcases hidle with hn | hm
      · exact Or.inl hn
      · exact Or.inr (Or.inl hm)
    rw [finish_calm ha hw hopp, hclear]
  · simp only [not_or, Bool.not_eq_false] at hidle
    obtain ⟨hn, hm⟩ := hidle
    obtain ⟨hpark, hheld⟩ := h.resolve_left (by rw [hn]; exact Bool.noConfusion)
    have hadm : admitted (parkedGrant t g s) = (parkedGrant t g s).setAgenda
        { (parkedGrant t g s).agenda with admission := false, shortfall := false } := by
      refine admissionWalk_held fun n hmem => (parkedGrant_held n g).trans ?_
      rw [show (parkedGrant t g s).park = [t] from hpark] at hmem
      rw [List.mem_singleton.mp hmem, hheld]
    obtain ⟨f, he⟩ := endClaim_due (s := parkedGrant t g s) rfl (congrArg Agenda.shortfall ho) hn hm
    rw [hadm] at he
    rw [finish_of_endClaim (by rw [he]; intro e; exact absurd (hopp.symm.trans e) Bool.false_ne_true), he, ← hclear]
    rfl

/-- The new grant admits its tray, alone in the list and not held, when its commitment then fits. -/
theorem finish_parkedGrant_admits (ho : s.agenda = Agenda.none) (hp : (s.tray t).state = .parked)
    (hc : (s.tray t).commitment = 0) (hl : (s.tray t).locked = false) (hn : s.isNormal = true) (hm : s.isSettled = true)
    (hpark : s.park = [t]) (hh : s.held t = false) (hcodes : s.codesPass) (hs : s.startsWait) {g : Nat}
    (hfit : max (s.cfg t).inrush g ≤ s.headroom) :
    finish (parkedGrant t g s) =
      (journalise .admitted (some (.tray t)) (some (max (s.cfg t).inrush g)) none (enqueue t
        ({ parkedGrant t g s with park := [] }.putTray t (((s.tray t).regranted g).enter .queued g none)))).setAgenda .none := by
  have hrec : (parkedGrant t g s).tray t = (s.tray t).regranted g := by rw [parkedGrant_tray, if_pos rfl]
  obtain ⟨v, hv⟩ : ∃ v, v = (parkedGrant t g s).setAgenda
    { (parkedGrant t g s).agenda with admission := false, shortfall := false } := ⟨_, rfl⟩
  have hvrec : v.tray t = (s.tray t).regranted g := by rw [hv]; exact hrec
  have hroom : v.headroom = s.headroom := by
    rw [hv]
    show s.acct.usable - (s.acct.committed - (s.tray t).commitment + 0) = s.acct.usable - s.acct.committed
    rw [hc]
    rfl
  have hcfg : v.cfg t = s.cfg t := by
    unfold State.cfg
    rw [hvrec]
    rfl
  have hadm : admitted (parkedGrant t g s) = journalise .admitted (some (.tray t)) (some (max (s.cfg t).inrush g)) none
      (move t .queued g none v) := by
    have hwalk := admissionWalk_single (s := v) (t := t) (by rw [hvrec]; exact hp)
      (by rw [hv]; exact (parkedGrant_held t g).trans hh) (by rw [hvrec]; exact hcodes t) (by rw [hvrec]; exact hl)
      (by rw [hvrec, hcfg, hroom]; exact hfit)
    rw [hvrec, hcfg] at hwalk
    unfold admitted
    rw [← hv, show (parkedGrant t g s).park = [t] from hpark]
    exact hwalk
  have hvpark : v.park.filter (· != t) = [] := by
    rw [hv]
    show s.park.filter (· != t) = []
    simp [hpark]
  rw [move_queued_of_parked (by rw [hvrec]; exact hp), hvrec, hvpark] at hadm
  obtain ⟨f, he⟩ := endClaim_due (s := parkedGrant t g s) rfl (congrArg Agenda.shortfall ho) hn hm
  have hwait : (endClaim (parkedGrant t g s)).startsWait := by
    rw [he, hadm, enqueue_eq, hv]
    refine hs.imp id fun h => ?_
    show (if _ then _ else _ : Option Nat).isSome = true
    split
    · rfl
    · exact h
  rw [finish_of_endClaim fun _ => ⟨hwait, by rw [he]; rfl⟩, he, hadm, enqueue_eq, enqueue_eq, hv]
  rfl

/-- Settles O20: the record whose grant is replaced, and the pass over a list that holds its tray alone. -/
theorem grantOnAParkedTray : Obligations.GrantOnAParkedTray := by
  intro s p tag b amount rev park t h hw ht hc hp
  have owed := h.1.1.2
  have taken := grantTaken_parked (g := amount.toNat) (k := park == 1) hp
  refine ⟨fun hstay => grant_passed h ht hc taken (finish_parkedGrant_stays owed hw _ hstay),
    fun hn hm hpark hh hcodes hs hlaw hfit => ?_⟩
  have hl := grantCheck_unlocked hc
  have hcom : (s.tray t).commitment = 0 := by
    rw [hlaw.1, hp]
    rfl
  refine ⟨_, grant_passed h ht hc taken (finish_parkedGrant_admits owed hp hcom hl hn hm hpark hh hcodes hs hfit), ?_⟩
  rw [enqueue_eq]
  have hother (n : TrayId) (hne : n ≠ t) : ({ parkedGrant t amount.toNat s with park := [] }.putTray t
      (((s.tray t).regranted amount.toNat).enter .queued amount.toNat none)).tray n = s.tray n := by
    rw [putTray_tray, if_neg hne]
    exact (parkedGrant_tray n _).trans (if_neg hne)
  have hself := putTray_tray_self t (((s.tray t).regranted amount.toNat).enter .queued amount.toNat none)
    { parkedGrant t amount.toNat s with park := [] }
  have hcommit : ((s.tray t).regranted amount.toNat).commitFor .queued amount.toNat = max (s.cfg t).inrush amount.toNat :=
    if_neg (Bool.eq_false_iff.mp hl)
  refine ⟨congrArg Tray.state hself, congrArg Tray.grant hself, (congrArg Tray.commitment hself).trans hcommit, rfl, rfl, ?_,
    rfl, hother⟩
  show s.acct.committed - (s.tray t).commitment + 0 - ((parkedGrant t amount.toNat s).tray t).commitment +
    ((s.tray t).regranted amount.toNat).commitFor .queued amount.toNat = _
  rw [parkedGrant_tray, if_pos rfl, hcommit, hcom]
  rfl

end Sys2Proof.Machine
end

section
/-! SUPPORT. SET_SHELF at a leased port: both settings replaced, and the capacity claim that a changed redundancy forms (R27,
R33, R35). -/

namespace Sys2Proof.Machine

variable {s : State} {p : Port}

/-- SET_SHELF that names on or off for both settings is taken, and its event ended. -/
theorem setShelf_taken {red auto : Byte} {r a : Bool} {w : State} (h : s.leased p) (tag : Byte) (hr : onOff red = some r)
    (ha : onOff auto = some a) (hw : finish (shelfTaken p r a s) = w) :
    exec (.setShelf p tag red auto) s = .next (respond p tag ⟨.ok, w.shelfPayload⟩ w) :=
  next_leased h tag (by simp only [hr, ha, answerAfter, hw])

/-- A redundancy that is named again forms no claim. -/
theorem shelfTaken_repeated {r : Bool} (hr : s.acct.redundancy = r) (a : Bool) : shelfTaken p r a s =
    settingsEntry p 0x30 { s with acct := { s.acct with autoRestart := a } } := by
  rw [shelfTaken_eq, if_neg (by simp [hr])]
  subst hr
  rfl

/-- A capacity claim and the ends of its claim and event leave the capacities as worked out at its beginning. -/
theorem shelfTaken_capacities {r : Bool} (hr : s.acct.redundancy ≠ r) (a : Bool) :
    let u := finish (shelfTaken p r a s)
    (u.acct.shelf, u.acct.battery, u.acct.mode, u.acct.redundancy, u.acct.autoRestart) =
      ((shelfSet r a s).shelfNow, s.batteryNow, s.acct.mode, r, a) := by
  have he : Evolves (capacityEntry none .redundancy (shelfSet r a s)) (finish (shelfTaken p r a s)) := by
    rw [shelfTaken_eq, if_pos (bne_iff_ne.mpr hr), capacityClaim_eq]
    exact (((capacityEffect_evolves _ _).trans (endClaim_evolves _)).trans (.entry ..)).trans (finish_evolves _)
  refine he.sameUnits.shelf.trans ?_
  unfold capacityEntry
  dsimp only
  split <;> rfl

/-- Settles O29: the two parameters, and an account that a claim works out once and no pass writes again. -/
theorem setShelfReplacesBothSettings : Obligations.SetShelfReplacesBothSettings := by
  intro s p tag red auto h
  refine ⟨fun hb => next_leased h tag ?_, fun r a hr ha => ⟨fun hsame => ?_, fun hdiff => ?_⟩⟩
  · rcases hb with hb | hb
    · simp only [onOff_none.mpr hb]
      rfl
    · simp only [onOff_none.mpr hb]
      cases onOff red <;> rfl
  · refine setShelf_taken h tag hr ha ?_
    rw [shelfTaken_repeated hsame]
    exact finish_none h.1.1.2
  · have hcap := shelfTaken_capacities (p := p) hdiff a
    dsimp only at hcap
    simp only [Prod.mk.injEq] at hcap
    obtain ⟨hshelf, hbattery, _, hred, hauto⟩ := hcap
    exact ⟨_, setShelf_taken h tag hr ha rfl, hred, hauto, hbattery, hshelf⟩

end Sys2Proof.Machine
end

section
/-! SUPPORT. A tray that is FAULTED, or in RUN with a part that passes its check, as the passes, starts and plan runs of an event
find it: they leave its record and its enable latch alone (R47, R50, R59, R66, R68). -/

namespace Sys2Proof.Machine

variable {s u v : State} {t n : TrayId}

/-! ### Trays that no pass takes -/

/-- FAULTED, or RUN with a part that passes its check. -/
def Tray.aloof (r : Tray) : Prop := r.state = .faulted ∨ r.state = .run ∧ r.failsCheck = false

/-- A tray that no pass takes keeps its record and its enable latch. -/
structure Spares (t : TrayId) (s u : State) : Prop where
  kept : (s.tray t).aloof → u.tray t = s.tray t ∧ u.hold.enable[t] = s.hold.enable[t]

theorem Spares.refl (s : State) : Spares t s s := ⟨fun _ => ⟨rfl, rfl⟩⟩

theorem Spares.trans (h : Spares t s u) (h' : Spares t u v) : Spares t s v := ⟨fun ha => by
  obtain ⟨h1, h2⟩ := h.kept ha
  obtain ⟨h3, h4⟩ := h'.kept (h1 ▸ ha)
  exact ⟨h3.trans h1, h4.trans h2⟩⟩

theorem Spares.ite {c : Prop} [Decidable c] {a b : State} (ha : c → Spares t s a) (hb : ¬c → Spares t s b) :
    Spares t s (if c then a else b) := by
  split
  · exact ha ‹_›
  · exact hb ‹_›

theorem Spares.foldl {α : Type} {f : State → α → State} (h : ∀ s a, Spares t s (f s a)) (l : List α) (s : State) :
    Spares t s (l.foldl f s) := by
  induction l generalizing s with
  | nil => exact .refl s
  | cons a l ih => exact (h s a).trans (ih _)

/-- What is shown under the assumption that the tray is one that no pass takes. -/
theorem Spares.of_aloof (h : (s.tray t).aloof → Spares t s u) : Spares t s u := ⟨fun ha => (h ha).kept ha⟩

theorem Spares.beside (ht : u.trays = s.trays) (hh : u.hold = s.hold) : Spares t s u :=
  ⟨fun _ => ⟨tray_congr ht t, by rw [hh]⟩⟩

theorem Tray.aloof.ne {st : TrayState} (h : (s.tray t).aloof) (hn : (s.tray n).state = st) (hf : st ≠ .faulted)
    (hr : st ≠ .run) : n ≠ t := by
  rintro rfl
  rcases h with h | ⟨h, _⟩
  · exact hf (hn.symm.trans h)
  · exact hr (hn.symm.trans h)

/-! ### Moves and reads of other trays -/

theorem setAgenda_spares (a : Agenda) (s : State) : Spares t s (s.setAgenda a) := .beside rfl rfl
theorem opportunity_spares (s : State) : Spares t s (opportunity s) := .beside rfl rfl
theorem admissionDue_spares (s : State) : Spares t s (admissionDue s) := .beside rfl rfl
theorem raise_spares (c : Alert) (s : State) : Spares t s (raise c s) := .beside rfl rfl
theorem sortPark_spares (s : State) : Spares t s (sortPark s) := .beside rfl rfl
theorem journalise_spares (k : Kind) (a : Option Subject) (v : Option Nat) (r : Option Reason) (s : State) :
    Spares t s (journalise k a v r s) := .beside rfl rfl

theorem trapFailure_spares (x : TrapSource) (s : State) : Spares t s (trapFailure x s) := by
  rw [trapFailure_eq]
  exact .beside rfl rfl

theorem setRecord_spares (hn : n ≠ t) (r : Tray) (s : State) : Spares t s (s.setRecord n r) :=
  ⟨fun _ => ⟨by rw [setRecord_tray, if_neg hn.symm], rfl⟩⟩

theorem leaveAndPut_enable_ne (hn : n ≠ t) (st : TrayState) (g : Nat) (c : Option FaultCause) (s : State) :
    (leaveAndPut n st g c s).hold.enable[t] = s.hold.enable[t] := by
  unfold leaveAndPut
  rw [putTray_enable_ne hn.symm, leaveCollection_hold]
  split <;> rfl

theorem moveBare_spares (hn : n ≠ t) (st : TrayState) (g : Nat) (c : Option FaultCause) (s : State) :
    Spares t s (moveBare n st g c s) := ⟨fun _ => by
  refine ⟨by rw [moveBare_tray, if_neg hn.symm], ?_⟩
  rw [moveBare_eq, joinCollection_hold]
  exact leaveAndPut_enable_ne hn st g c s⟩

theorem isolate_spares (hn : n ≠ t) (z : ZoneId) (s : State) : Spares t s (isolate z n s) :=
  ((moveBare_spares hn ..).trans (journalise_spares ..)).trans (admissionDue_spares _)

theorem pickLeakZone_spares (e : Option ZoneId) (s : State) : Spares t s (pickLeakZone e s).2 := by
  unfold pickLeakZone
  split
  · exact .refl s
  · split
    · exact .refl s
    · exact .refl s
    · exact .beside rfl rfl

theorem lockOne_spares (hn : n ≠ t) (e : Option ZoneId) (s : State) : Spares t s (lockOne e n s) := by
  have h := (setRecord_spares hn (s.tray n).lockedNow s).trans (sortPark_spares _)
  unfold lockOne
  refine .trans ?_ (raise_spares ..)
  refine .trans ?_ (journalise_spares ..)
  refine .trans ?_ (trapFailure_spares ..)
  split
  · have h' := h.trans (pickLeakZone_spares e _)
    split
    · rename_i z s' heq
      erw [heq] at h'
      exact h'.trans (isolate_spares hn ..)
    · rename_i s' heq
      erw [heq] at h'
      exact h'
  · exact h

/-- A collection's members are tested: one that no pass takes is no member, or passes its test. -/
theorem testMembers_spares {m : TrayState → Bool} (hm : m .faulted = false) (e : Option ZoneId) (s : State) :
    Spares t s (testMembers e m s) := by
  refine .foldl (fun s n => .of_aloof fun ha => ?_) _ s
  by_cases hn : n = t
  · subst hn
    rcases ha with hf | ⟨_, hc⟩
    · rw [hf, hm, if_neg Bool.false_ne_true]
      exact .refl s
    · rw [testOne_passes hc, ite_self]
      exact .refl s
  · exact .ite (fun _ => .ite (fun _ => lockOne_spares hn e s) fun _ => .refl s) fun _ => .refl s

theorem checkRead_spares (hn : n ≠ t) (s : State) : Spares t s (checkRead n s) := by
  unfold checkRead checkReadIn
  refine .ite (fun _ => (lockOne_spares hn none s).trans ?_) fun _ => .refl s
  exact .ite (fun _ => testMembers_spares rfl ..) fun _ => .ite (fun _ => testMembers_spares rfl ..) fun _ => .refl _

theorem move_spares (hn : n ≠ t) (st : TrayState) (g : Nat) (c : Option FaultCause) (s : State) :
    Spares t s (move n st g c s) :=
  (moveBare_spares hn st g c s).trans (.ite (fun _ => testMembers_spares rfl ..) fun _ => .refl _)

/-! ### Admissions and starts -/

theorem admissionWalk_spares (l : List TrayId) (s : State) : Spares t s (admissionWalk l s) := by
  induction l generalizing s with
  | nil => exact .refl s
  | cons n l ih =>
    unfold admissionWalk
    split
    · exact ih s
    · rename_i hp
      simp only [Bool.or_eq_true, bne_iff_ne, ne_eq, not_or, not_not] at hp
      refine .of_aloof fun ha => ?_
      have hn := ha.ne hp.1 (by decide) (by decide)
      have read := checkRead_spares hn s
      dsimp only
      split
      · exact read.trans (ih _)
      · split
        · exact ((read.trans (move_spares hn ..)).trans (journalise_spares ..)).trans (ih _)
        · exact read

theorem admissionPass_spares (s : State) : Spares t s (admissionPass s) :=
  (admissionWalk_spares s.park s).trans (setAgenda_spares ..)

theorem admissionIfAllowed_spares (s : State) : Spares t s (admissionIfAllowed s) :=
  .ite (fun _ => admissionPass_spares s) fun _ => .refl s

theorem startTray_spares (hn : n ≠ t) (j : SlotId) (s : State) : Spares t s (startTray n j s) := by
  unfold startTray
  refine .trans ?_ (journalise_spares ..)
  have h := (move_spares hn .inrush (s.tray n).grant none s).trans
    (.beside (u := armWindow j n (s.cfg n).window (move n .inrush (s.tray n).grant none s)) rfl rfl)
  exact .ite (fun _ => h.trans (.beside rfl rfl)) fun _ => h

theorem startFirst_spares (l : List TrayId) (s : State) : Spares t s (startFirst l s).1 := by
  induction l generalizing s with
  | nil => exact .refl s
  | cons n l ih =>
    unfold startFirst
    split
    · exact ih s
    · rename_i hq
      simp only [Bool.or_eq_true, bne_iff_ne, ne_eq, not_or, not_not] at hq
      refine .of_aloof fun ha => ?_
      have hn := ha.ne hq.1 (by decide) (by decide)
      have read := checkRead_spares hn s
      dsimp only
      split
      · exact read.trans (ih _)
      · split
        · exact read.trans (startTray_spares hn ..)
        · exact read

theorem gapStarts_spares (k : Nat) (s : State) : Spares t s (gapStarts k s) := by
  induction k generalizing s with
  | zero => exact .refl s
  | succ k ih =>
    have h := startFirst_spares (t := t) s.queue s
    unfold gapStarts
    split
    · generalize startFirst s.queue s = x at h ⊢
      exact h.trans (.ite (fun _ => ih _) fun _ => .refl _)
    · exact .refl s

theorem offerStart_spares (s : State) : Spares t s (offerStart s) :=
  (setAgenda_spares _ s).trans (.ite (fun _ => gapStarts_spares ..) fun _ => .refl _)

/-! ### The end of a claim and of an event -/

theorem enterNormal_spares (s : State) : Spares t s (enterNormal s) := by
  obtain ⟨k, r, he⟩ := enterNormal_eq s
  have h : Spares t s (admissionIfAllowed s.normalBegun) :=
    .trans (.beside (u := s.normalBegun) rfl rfl) (admissionIfAllowed_spares _)
  rw [he]
  refine .trans ?_ (raise_spares ..)
  refine .trans ?_ (journalise_spares ..)
  refine .trans ?_ (opportunity_spares _)
  exact .ite (fun _ => h.trans (.beside rfl rfl)) fun _ => h

theorem regainTest_spares (s : State) : Spares t s (regainTest s) := .ite (fun _ => enterNormal_spares s) fun _ => .refl s

theorem endClaim_spares (s : State) : Spares t s (endClaim s) := by
  unfold endClaim
  dsimp only
  generalize ({ s.agenda with admission := false, shortfall := false } : Agenda) = a
  have h : Spares t s (if (s.agenda.admission && !s.agenda.shortfall) = true then admissionIfAllowed (s.setAgenda a)
      else s.setAgenda a) :=
    .ite (fun _ => (setAgenda_spares a s).trans (admissionIfAllowed_spares _)) fun _ => setAgenda_spares a s
  refine h.trans (.ite (fun _ => ?_) fun _ => .refl _)
  exact (setAgenda_spares ..).trans (regainTest_spares _)

theorem finishRounds_spares (k : Nat) (s : State) : Spares t s (finishRounds k s) := by
  induction k generalizing s with
  | zero => exact .refl s
  | succ k ih =>
    have hc := endClaim_spares (t := t) s
    have ho := hc.trans (offerStart_spares _)
    unfold finishRounds
    exact .ite (fun _ => .ite (fun _ => ho.trans (ih _)) fun _ => ho) fun _ => hc

theorem finish_spares (s : State) : Spares t s (finish s) := (finishRounds_spares 33 s).trans (setAgenda_spares ..)

/-! ### Plan runs -/

theorem reportEntry_spares (i : Nat) (s : State) : Spares t s (reportEntry i s) := by
  cases he : s.seq.plan[i]? with
  | none =>
    have : reportEntry i s = s := by unfold reportEntry; rw [he]
    rw [this]
    exact .refl s
  | some e =>
    cases hn : e.news with
    | true =>
      rw [reportEntry_news he hn]
      exact .beside rfl rfl
    | false =>
      rw [reportEntry_old he hn]
      exact .refl s

theorem queueOrPark_spares (hn : n ≠ t) (g : Nat) (s : State) : Spares t s (queueOrPark n g s).1 := by
  have hq := move_spares hn .queued g none s
  have hp := move_spares hn .parked g none s
  unfold queueOrPark
  generalize move n .queued g none s = v at hq ⊢
  generalize move n .parked g none s = w at hp ⊢
  split
  · exact hq
  · exact hp

theorem planRunEntry_spares (automatic : Bool) (s : State) (k : RunCounts) (i : Nat) :
    Spares t s (planRunEntry automatic (s, k) i).1 := by
  unfold planRunEntry
  dsimp only
  split
  · exact .refl s
  · rename_i e he
    split
    · exact (reportEntry_spares i s).trans (journalise_spares ..)
    · split
      · exact journalise_spares ..
      · rename_i hi
        simp only [bne_iff_ne, ne_eq, not_not] at hi
        refine .of_aloof fun ha => ?_
        have hn := ha.ne hi (by decide) (by decide)
        have read := checkRead_spares hn s
        split
        · exact read.trans (journalise_spares ..)
        · have h := read.trans (queueOrPark_spares hn ((checkRead e.tray s).cfg e.tray).standing _)
          generalize queueOrPark e.tray ((checkRead e.tray s).cfg e.tray).standing (checkRead e.tray s) = x at h ⊢
          obtain ⟨u, b⟩ := x
          cases b <;> exact h

theorem planRunEntries_spares (automatic : Bool) (l : List Nat) (s : State) (k : RunCounts) :
    Spares t s (l.foldl (planRunEntry automatic) (s, k)).1 := by
  induction l generalizing s k with
  | nil => exact .refl s
  | cons i l ih =>
    rw [List.foldl_cons]
    exact (planRunEntry_spares automatic s k i).trans (ih _ _)

theorem planRun_spares (automatic : Bool) (s : State) : Spares t s (planRun automatic s).1 :=
  (planRunEntries_spares automatic _ s _).trans (journalise_spares ..)

theorem automaticRun_spares (s : State) : Spares t s (automaticRun s) := by
  unfold automaticRun
  refine .ite (fun _ => .ite (fun _ => ?_) fun _ => .beside rfl rfl) fun _ => .refl s
  exact .trans (.beside (u := s.setDue false false) rfl rfl) (.ite (fun _ => planRun_spares ..) fun _ => .refl _)

/-! ### The shortfall pass, for a FAULTED tray -/

theorem shortfallMove_spares (hn : n ≠ t) (r : Reason) (s : State) : Spares t s (shortfallMove r n s) :=
  ((move_spares hn ..).trans (journalise_spares ..)).trans (raise_spares ..)

theorem withdrawals_spares (k : Nat) (h : s.collectionsAgree) : Spares t s (withdrawals k s) := by
  induction k generalizing s with
  | zero => exact .refl s
  | succ k ih =>
    unfold withdrawals
    split
    · split
      · rename_i n hlast
        have hq : (s.tray n).state = .queued := (h.2.2.1 n).mp (List.mem_of_getLast? hlast)
        refine .of_aloof fun ha => ?_
        have hn := ha.ne hq (by decide) (by decide)
        exact (shortfallMove_spares hn ..).trans (ih ((shortfallMove_evolves ..).collectionsAgree h))
      · exact .refl s
    · exact .refl s

/-- The sheds take trays in INRUSH and RUN only. -/
theorem sheds_spares (k : Nat) (hf : (s.tray t).state = .faulted) : Spares t s (sheds k s) := by
  induction k generalizing s with
  | zero => exact .refl s
  | succ k ih =>
    unfold sheds
    rw [shedRound_eq]
    by_cases hover : s.acct.usable < s.acct.committed
    · rw [if_pos hover]
      have read := testMembers_spares (t := t) (m := TrayState.enabled) rfl none s
      have hv := (congrArg Tray.state (read.kept (Or.inl hf)).1).trans hf
      generalize testMembers none TrayState.enabled s = v at read hv ⊢
      cases hnext : shedNext v with
      | none => exact read
      | some n =>
        have hn : n ≠ t := by
          rintro rfl
          have he := shedNext_some hnext
          rw [hv] at he
          exact Bool.false_ne_true he
        have shed := shortfallMove_spares hn .shed v
        exact (read.trans shed).trans (ih ((congrArg Tray.state (shed.kept (Or.inl hv)).1).trans hv))
    · rw [if_neg hover]
      exact .refl s

theorem shortfallIfDue_spares (h : s.collectionsAgree) (hf : (s.tray t).state = .faulted) : Spares t s (shortfallIfDue s) := by
  refine .ite (fun _ => ?_) fun _ => .refl s
  have hw := withdrawals_spares (t := t) 32 h
  have hfw := (congrArg Tray.state (hw.kept (Or.inl hf)).1).trans hf
  unfold shortfallPass
  generalize withdrawals 32 s = v at hw hfw ⊢
  exact (hw.trans (sheds_spares 32 hfw)).trans (setAgenda_spares ..)

theorem recoveringEnds_spares (h : s.collectionsAgree) (hf : (s.tray t).state = .faulted) : Spares t s (recoveringEnds s) := by
  have hs : Spares t s (shortfallIfDue { s with acct := { s.acct with mode := .settled } }) :=
    .trans (.beside (u := s.settles) rfl rfl) (shortfallIfDue_spares (s := s.settles) h hf)
  unfold recoveringEnds
  dsimp only
  generalize shortfallIfDue { s with acct := { s.acct with mode := .settled } } = v at hs ⊢
  refine .trans ?_ (journalise_spares ..)
  refine .trans ?_ (opportunity_spares _)
  refine .trans ?_ (setAgenda_spares ..)
  exact hs.trans (.ite (fun _ => admissionPass_spares v) fun _ => .refl v)

/-! ### Window ends -/

theorem startSucceeded_spares (hn : n ≠ t) (s : State) : Spares t s (startSucceeded n s) := by
  unfold startSucceeded
  refine .trans ?_ (admissionDue_spares _)
  refine .trans ?_ (journalise_spares ..)
  refine .trans ?_ (.ite (fun _ => .refl _) fun _ => setRecord_spares hn ..)
  exact (move_spares hn ..).trans (checkRead_spares hn _)

theorem startFailed_spares (hn : n ≠ t) (s : State) : Spares t s (startFailed n s) := by
  unfold startFailed
  refine .trans ?_ (raise_spares ..)
  refine .ite (fun _ => ?_) fun _ => ?_
  · exact ((setRecord_spares hn ..).trans (move_spares hn ..)).trans (journalise_spares ..)
  · exact ((move_spares hn ..).trans (journalise_spares ..)).trans (admissionDue_spares _)

theorem windowEnd_spares (j : SlotId) (h : s.collectionsAgree) : Spares t s (windowEnd j s) := by
  unfold windowEnd
  split
  · exact .refl s
  · rename_i w hw
    refine .of_aloof fun ha => ?_
    have hn := ha.ne (slot_inrush h hw) (by decide) (by decide)
    exact .ite (fun _ => startSucceeded_spares hn s) fun _ => startFailed_spares hn s

theorem powerGoodReport_spares (window : Option (SlotId × Nat)) (pg : Bool) (h : s.collectionsAgree) :
    Spares t s (powerGoodReport window pg s) := by
  unfold powerGoodReport
  match window with
  | none => exact .refl s
  | some (j, start) =>
    dsimp only
    split
    · exact .refl s
    · rename_i w hw
      refine .ite (fun _ => .refl s) fun _ => ?_
      have agree := (Evolves.judged j w (if pg then .good else .notGood) s hw).collectionsAgree h
      have judged : Spares t s (s.setSlot j (some { w with report := if pg then .good else .notGood })) := .beside rfl rfl
      exact judged.trans (.ite (fun _ => windowEnd_spares j agree) fun _ => .refl _)

/-! ### The end of a poll -/

/-- A round end spares a tray in SETTLED, and a FAULTED tray also where it ends RECOVERING. -/
theorem recoverIfDue_spares (h : s.isSettled = true ∨ s.collectionsAgree ∧ (s.tray t).state = .faulted) :
    Spares t s (recoverIfDue s) := by
  refine .ite (fun hm => ?_) fun _ => .refl s
  rcases h with hs | ⟨hc, hf⟩
  · unfold State.isSettled at hs
    rw [eq_of_beq hm] at hs
    exact absurd hs (by decide)
  · exact recoveringEnds_spares hc hf

theorem roundEnd_spares (h : s.isSettled = true ∨ s.collectionsAgree ∧ (s.tray t).state = .faulted) :
    Spares t s (roundEnd s) := by
  have h1 : Spares t s (countRound s) := .beside rfl rfl
  have h2 : Spares t (countRound s) (recoverIfDue (countRound s)) := recoverIfDue_spares h
  have h3 := ((h1.trans h2).trans (endClaim_spares _)).trans (automaticRun_spares _)
  rw [roundEnd_eq]
  exact .ite (fun _ => h3.trans (admissionDue_spares _)) fun _ => h3

theorem sendPoll_spares (a : StationId) (s : State) : Spares t s (sendPoll a s) := by
  unfold sendPoll
  dsimp only
  split
  · exact .beside rfl rfl
  · exact .beside rfl rfl

theorem pollEnded_spares (a : StationId) (h : s.isSettled = true ∨ s.collectionsAgree ∧ (s.tray t).state = .faulted) :
    Spares t s (pollEnded a s) := by
  have he : Spares t s (if a = 31 then roundEnd s else endClaim s) :=
    .ite (fun _ => roundEnd_spares h) fun _ => endClaim_spares s
  exact (he.trans (finish_spares _)).trans (sendPoll_spares ..)

theorem holdLifted_spares (n : TrayId) (s : State) : Spares t s (holdLifted n s) :=
  (opportunity_spares s).trans (.ite (fun _ => admissionDue_spares _) fun _ => .refl _)

end Sys2Proof.Machine
end

section
/-! SUPPORT. The replies of a tray that report its fault or ask for another grant: the claim that the reply forms, and the
rest of its event, which spares the tray (R42, R43, R44, R115, R116). -/

namespace Sys2Proof.Machine

variable {s u : State} {t : TrayId} {q : Poll}

/-! ### A tray's valid reply -/

/-- The second state differs from the first in the units that a reply is noted in: the Station Link, the leak marks, and the journal
with both ports' cursors. -/
def NotedIn (s u : State) : Prop :=
  ∃ k l j a b, u = { s with link := k, leak := l, journal := j, portA := a, portB := b }

/-- The local leak of a tray's reply is noted (R115 step 1). -/
def leakNoted (t : TrayId) (localLeak : Bool) (s : State) : State :=
  if localLeak then { s with leak := { s.leak with reporting := s.leak.reporting.set t true } } else s

theorem replyNoted_notedIn (q : Poll) (reply : Reply) (s : State) (localLeak : Bool) :
    NotedIn s (leakNoted t localLeak (replyNoted q reply (emptyPoll s))) := by
  unfold leakNoted replyNoted
  dsimp only
  split
  · split
    · exact ⟨_, _, s.journal, s.portA, s.portB, rfl⟩
    · exact ⟨_, _, _, _, _, rfl⟩
  · split
    · exact ⟨_, s.leak, s.journal, s.portA, s.portB, rfl⟩
    · exact ⟨_, s.leak, _, _, _, rfl⟩

/-- Steps 2 to 4 of a reply from a tray polled in QUEUED, INRUSH or RUN, each claim with its own end (R115). -/
def handedOn (t : TrayId) (q : Poll) (polled : TrayState) (powerGood fault : Bool) (demand : Nat) (s : State) : State :=
  let v := endClaim (selfRequest t polled demand (if fault = true then endClaim (faultReport t polled s) else s))
  if polled = .inrush then endClaim (powerGoodReport q.window powerGood v) else v

theorem trayHandOn_eq {polled : TrayState} {g : Nat} (hq : q.sent = some (polled, g)) (hk : polled.keepsMarks = true)
    (powerGood fault localLeak : Bool) (demand : Nat) (s : State) : trayHandOn t q powerGood fault localLeak demand s =
      handedOn t q polled powerGood fault demand (leakNoted t localLeak s) := by
  unfold trayHandOn handedOn leakNoted
  simp only [hq, hk, Bool.and_true, if_true, beq_iff_eq]

/-- A valid reply of a tray polled in QUEUED, INRUSH or RUN: it is noted, handed on, and the poll ends. -/
theorem trayReply_taken {bytes frame : List Byte} {polled : TrayState} {g demand : Nat} {powerGood fault localLeak : Bool}
    (h : s.running) (ho : s.link.outstanding = some q) (ha : q.address = trayStation t) (hq : q.sent = some (polled, g))
    (hk : polled.keepsMarks = true) (hb : completeFrame bytes = some frame)
    (hr : validReply q.address frame = some (.tray powerGood fault localLeak demand)) :
    ∃ (begun : State) (lifted : Bool), NotedIn s begun ∧ exec (.replyFrame bytes) s = .next (pollEnded q.address
      (if lifted = true then holdLifted t (handedOn t q polled powerGood fault demand begun)
        else handedOn t q polled powerGood fault demand begun)) := by
  have hlt : q.address.val < 32 := by rw [ha]; exact t.isLt
  have ht : (⟨q.address.val, hlt⟩ : TrayId) = t := Fin.ext (congrArg (fun a : StationId => a.val) ha)
  have hexec : exec (.replyFrame bytes) s = .next (pollEnded q.address
      (takeReply q (.tray powerGood fault localLeak demand) (emptyPoll s))) := by
    refine congrArg Host.Outcome.next ?_
    unfold coreEvent replyReceived
    simp only [h.1, Bool.false_eq_true, if_false, ho, hb, hr]
  rw [takeReply_eq, replyHandedOn, dif_pos hlt, ht] at hexec
  dsimp only at hexec
  rw [trayHandOn_eq hq hk] at hexec
  exact ⟨_, _, replyNoted_notedIn q _ s localLeak, hexec⟩

/-- A reply handed on to a tray, and the end of its poll, spare the tray. -/
theorem replyEnds_spares (a : StationId) (lifted : Bool)
    (h : s.isSettled = true ∨ s.collectionsAgree ∧ (s.tray t).state = .faulted) :
    Spares t s (pollEnded a (if lifted = true then holdLifted t s else s)) := by
  cases lifted
  · exact pollEnded_spares a h
  · refine (holdLifted_spares t s).trans (pollEnded_spares a ?_)
    have he := holdLifted_evolves t s
    have hm : (holdLifted t s).isSettled = s.isSettled := (holdLifted_steady t s).isSettled
    have hst : ((holdLifted t s).tray t).state = (s.tray t).state := by
      unfold holdLifted
      dsimp only
      split <;> rfl
    exact h.imp hm.trans fun ⟨hc, hf⟩ => ⟨he.collectionsAgree hc, hst.trans hf⟩

theorem NotedIn.tray (h : NotedIn s u) (n : TrayId) : u.tray n = s.tray n := by
  obtain ⟨_, _, _, _, _, rfl⟩ := h
  rfl

theorem NotedIn.collectionsAgree (h : NotedIn s u) (hs : s.collectionsAgree) : u.collectionsAgree := by
  obtain ⟨_, _, _, _, _, rfl⟩ := h
  exact hs

/-! ### A fault report -/

/-- The record of a tray whose fault has been reported. -/
def Tray.reported (r : Tray) : Tray :=
  { r with
    state := .faulted, grant := 0, commitment := 0, revision := r.revision + 1, faultCause := some .reported
    adopted := false, deferred := false, overCap := false }

theorem enter_faulted (r : Tray) : r.enter .faulted 0 (some .reported) = r.reported := by
  have hb : (TrayState.faulted == TrayState.run) = false := rfl
  simp only [Tray.enter, Tray.reported, Tray.commitFor, TrayState.keepsMarks, hb, Bool.and_false]

/-- A fault report for a tray in the state that was polled makes it FAULTED, with its output off (R116). -/
theorem faultReport_faults {polled : TrayState} (hp : (s.tray t).state = polled) :
    (faultReport t polled s).tray t = (s.tray t).reported ∧ (faultReport t polled s).hold.enable[t] = false := by
  have hmove : move t .faulted 0 (some .reported) s = moveBare t .faulted 0 (some .reported) s := rfl
  unfold faultReport
  rw [hmove]
  dsimp only
  rw [if_neg (by simp [hp])]
  have htray := moveBare_tray t .faulted 0 (some .reported) s t
  rw [if_pos rfl, enter_faulted] at htray
  refine ⟨htray, ?_⟩
  show (moveBare t .faulted 0 (some .reported) s).hold.enable[t] = false
  rw [moveBare_eq, joinCollection_hold]
  exact putTray_enable_self ..

/-- A self-request whose tray is no longer in the state that was polled is dropped (R42). -/
theorem selfRequest_dropped {polled : TrayState} (hp : (s.tray t).state ≠ polled) (demand : Nat) :
    selfRequest t polled demand s = s := if_pos (bne_iff_ne.mpr hp)

theorem Evolves.isSettled (h : Evolves s u) : u.isSettled = s.isSettled :=
  congrArg (fun x : Nat × Nat × AccountMode × Bool × Bool => x.2.2.1 == .settled) h.sameUnits.shelf

theorem handedOn_evolves {polled : TrayState} (hk : polled.keepsMarks = true) (powerGood fault : Bool) (demand : Nat) (s : State) :
    Evolves s (handedOn t q polled powerGood fault demand s) := by
  have h1 : Evolves s (if fault = true then endClaim (faultReport t polled s) else s) :=
    .ite ((faultReport_evolves ..).trans (endClaim_evolves _)) (.refl s)
  have h2 := (h1.trans (selfRequest_evolves t polled demand _ hk)).trans (endClaim_evolves _)
  exact .ite (h2.trans ((powerGoodReport_evolves ..).trans (endClaim_evolves _))) h2

/-- What follows a fault report within its event spares the FAULTED tray. -/
theorem handedOn_faulted {polled : TrayState} (hs : s.collectionsAgree) (hp : (s.tray t).state = polled)
    (hf : polled ≠ .faulted) (powerGood : Bool) (demand : Nat) :
    Spares t (faultReport t polled s) (handedOn t q polled powerGood true demand s) := by
  have hfault : ((faultReport t polled s).tray t).state = .faulted := congrArg Tray.state (faultReport_faults hp).1
  have hend := endClaim_spares (t := t) (faultReport t polled s)
  have hstate := (congrArg Tray.state (hend.kept (Or.inl hfault)).1).trans hfault
  have hagree := ((faultReport_evolves t polled s).trans (endClaim_evolves _)).collectionsAgree hs
  unfold handedOn
  rw [if_pos rfl, selfRequest_dropped (by rw [hstate]; exact hf.symm)]
  generalize endClaim (faultReport t polled s) = v at hend hagree ⊢
  have hclaim := hend.trans (endClaim_spares v)
  refine .ite (fun _ => ?_) fun _ => hclaim
  exact (hclaim.trans (powerGoodReport_spares _ _ ((endClaim_evolves v).collectionsAgree hagree))).trans (endClaim_spares _)

/-! ### A self-request -/

theorem setOverCap_tray_self (t : TrayId) (b : Bool) (d : Option Nat) (s : State) :
    (setOverCap t b d s).tray t = { s.tray t with overCap := b } := by
  unfold setOverCap
  split
  · rename_i h
    rw [← eq_of_beq h]
  · exact setRecord_tray_self ..

theorem setOverCap_budget (t : TrayId) (b : Bool) (d : Option Nat) (s : State) :
    (setOverCap t b d s).acct = s.acct ∧ (setOverCap t b d s).hup = s.hup := by
  unfold setOverCap
  split <;> exact ⟨rfl, rfl⟩

/-- A self-request of a RUN tray for another grant is taken when the rise fits or the grant falls (R43). -/
theorem resizeRequest_taken {g : Nat} (hr : (s.tray t).state = .run) (hn : s.isNormal = true) (hg : g ≠ (s.tray t).grant)
    (hfit : g - (s.tray t).commitment ≤ s.headroom) : (resizeRequest t g s).tray t = { s.tray t with
      grant := g, commitment := g, revision := (s.tray t).revision + 1, deferred := false } := by
  have hc : (s.tray t).commitFor (s.tray t).state g = g := by rw [hr]; rfl
  have hput : (resizeGrant t g true s).tray t = { s.tray t with
      grant := g, commitment := g, revision := (s.tray t).revision + 1, deferred := false } := by
    unfold resizeGrant
    rw [putTray_tray_self, hc, Bool.and_true]
  have hfits : s.fits (g - (s.tray t).commitment) = true := decide_eq_true hfit
  unfold resizeRequest
  simp only [hc, beq_iff_eq, hg, if_false, hn, hfits, Bool.and_self, Bool.or_true, if_true]
  split
  · exact hput
  · exact hput

/-- A self-request of an unlocked RUN tray with self_request on, in NORMAL and SETTLED (R42, R43, R44). -/
theorem selfRequest_taken {demand : Nat} (hr : (s.tray t).state = .run) (hf : (s.tray t).failsCheck = false)
    (hl : (s.tray t).locked = false) (hself : (s.cfg t).selfRequest = true) (hn : s.isNormal = true) (hm : s.isSettled = true)
    (hpos : 0 < min demand (s.cfg t).cap) (hne : min demand (s.cfg t).cap ≠ (s.tray t).grant)
    (hfit : min demand (s.cfg t).cap - (s.tray t).commitment ≤ s.headroom) :
    (selfRequest t .run demand s).tray t = { s.tray t with
      grant := min demand (s.cfg t).cap, commitment := min demand (s.cfg t).cap, revision := (s.tray t).revision + 1
      deferred := false, overCap := decide ((s.cfg t).cap < demand) } := by
  have hcap := setOverCap_tray_self t (decide ((s.cfg t).cap < demand)) (some demand) s
  obtain ⟨hacct, hhup⟩ := setOverCap_budget t (decide ((s.cfg t).cap < demand)) (some demand) s
  have hdemand : (demand == 0) = false := by
    rw [beq_eq_false_iff_ne]
    omega
  have hwant : (min demand (s.cfg t).cap == 0) = false := by
    rw [beq_eq_false_iff_ne]
    omega
  have hread : selfRequest t .run demand s = resizeRequest t (min demand (s.cfg t).cap)
      (setOverCap t (decide ((s.cfg t).cap < demand)) (some demand) s) := by
    unfold selfRequest
    rw [if_neg (by simp [hr]), checkRead_passes hf]
    dsimp only
    rw [if_neg (by simp [hl, hdemand, show (s.tray t).cfg.selfRequest = true from hself])]
    exact (if_neg (Bool.eq_false_iff.mp hwant)).trans (if_pos ((congrArg (fun a : Account => a.mode == .settled) hacct).trans hm))
  rw [hread, resizeRequest_taken]
  · rw [hcap]
  · rw [hcap]
    exact hr
  · unfold State.isNormal
    rw [hhup]
    exact hn
  · rw [hcap]
    exact hne
  · unfold State.headroom
    rw [hcap, hacct]
    exact hfit

/-- Settles O39: the claim that the reply forms gives the record, and what follows it in the event spares the tray. -/
theorem trayRepliesReportFaultsAndDemands : Obligations.TrayRepliesReportFaultsAndDemands := by
  refine ⟨fun s q t st g demand bytes frame good leak h hagree ho ha hq hst hstate hb hr => ?_,
    fun s q t g demand bytes frame good leak h hn hm ho ha hq hstate hcode hl hself hb hr => ?_⟩
  · have hk : st.keepsMarks = true := by rcases hst with rfl | rfl | rfl <;> rfl
    have hf : st ≠ .faulted := by rintro rfl; exact absurd hk (by decide)
    obtain ⟨v, lifted, hv, hexec⟩ := trayReply_taken h ho ha hq hk hb hr
    have hvs : (v.tray t).state = st := (congrArg Tray.state (hv.tray t)).trans hstate
    obtain ⟨hrec, hoff⟩ := faultReport_faults hvs
    have hon := handedOn_faulted (q := q) (hv.collectionsAgree hagree) hvs hf good demand
    have haloof : ((faultReport t st v).tray t).aloof := Or.inl (congrArg Tray.state hrec)
    have hfault := (congrArg Tray.state (hon.kept haloof).1).trans (congrArg Tray.state hrec)
    have hend := hon.trans (replyEnds_spares q.address lifted (Or.inr
      ⟨(handedOn_evolves hk good true demand v).collectionsAgree (hv.collectionsAgree hagree), hfault⟩))
    obtain ⟨htray, henable⟩ := hend.kept haloof
    exact ⟨_, hexec, henable.trans hoff, htray.trans (hrec.trans (congrArg Tray.reported (hv.tray t)))⟩
  · intro r want hpos hne hfit
    obtain ⟨v, lifted, hv, hexec⟩ := trayReply_taken h ho ha hq rfl hb hr
    have hcodes : (s.tray t).failsCheck = false := by simp [Tray.failsCheck, hcode]
    have hrec : (selfRequest t .run demand v).tray t = { s.tray t with
        grant := want, commitment := want, revision := (s.tray t).revision + 1, deferred := false
        overCap := decide ((s.cfg t).cap < demand) } := by
      obtain ⟨_, _, _, _, _, rfl⟩ := hv
      exact selfRequest_taken hstate hcodes hl hself hn hm hpos hne hfit
    have hsettled : v.isSettled = true := by
      obtain ⟨_, _, _, _, _, rfl⟩ := hv
      exact hm
    have hclaim : handedOn t q .run good false demand v = endClaim (selfRequest t .run demand v) := rfl
    rw [hclaim] at hexec
    have hend := (endClaim_spares (t := t) (selfRequest t .run demand v)).trans (replyEnds_spares q.address lifted
      (Or.inl (((selfRequest_evolves t .run demand v rfl).trans (endClaim_evolves _)).isSettled.trans hsettled)))
    have haloof : ((selfRequest t .run demand v).tray t).aloof := by
      rw [hrec]
      exact Or.inr ⟨hstate, hcodes⟩
    exact ⟨_, hexec, (hend.kept haloof).1.trans hrec⟩

end Sys2Proof.Machine
end

section
/-! SUPPORT. The lease requests, and the edits and the refused commits of the plan staging (R55, R56, R57, R137). -/

namespace Sys2Proof.Machine

variable {s : State} {p : Port}

/-! ### CLAIM_LEASE, RENEW_LEASE and DROP_LEASE -/

theorem within_some {lo hi n : Nat} (h : lo ≤ n) (h' : n ≤ hi) : within lo hi n = some n := if_pos ⟨h, h'⟩

theorem within_none {lo hi n : Nat} (h : n < lo ∨ hi < n) : within lo hi n = none := if_neg (by omega)

theorem discardStaging_eq (p : Port) (why : Reason) (s : State) : discardStaging p why s =
    if s.seq.staging.holder = some p then journalise .planDiscard (some (.port p)) none (some why) (clearStaging s)
    else s := by
  simp only [discardStaging, beq_iff_eq]

/-- Settles O15: each command by the lease that it finds. -/
theorem leaseCommandsFollowTheirTable : Obligations.LeaseCommandsFollowTheirTable := by
  intro s p tag term h
  refine ⟨fun ht => next_free h tag ?_, fun h1 h600 => next_free h tag ?_,
    fun hn => ⟨next_free h tag ?_, next_free h tag ?_⟩, fun l hl => ⟨next_free h tag ?_, next_free h tag ?_⟩⟩
  · simp only [within_none (show term.toNat < 1 ∨ 600 < term.toNat by omega)]
    rfl
  · simp only [within_some h1 h600, Option.isNone_iff_eq_none]
    rfl
  · simp only [hn]
    rfl
  · simp only [hn]
    rfl
  · simp only [hl]
    rfl
  · simp only [hl, discardStaging_eq, journalise_seq, setLease_seq]
    rfl

/-! ### PLAN_POINT, PLAN_PUT and PLAN_LENGTH -/

variable {f : Staging → Option Staging}

/-- An edit of the staging, as the outcome of its command. -/
def edited (p : Port) (tag : Byte) (f : Staging → Option Staging) (s : State) : Host.Outcome State Fault Refusal :=
  .next (editStaging p tag f s)

/-- An edit without a lease is refused. -/
theorem edited_noLease (h : s.takes p) (hl : (s.port p).lease = none) (tag : Byte) (f : Staging → Option Staging) :
    edited p tag f s = .next (respond p tag ⟨.noLease, []⟩ s) :=
  congrArg Host.Outcome.next (takeRequest_noLease h hl tag _)

/-- An edit by a port that does not hold the staging is refused. -/
theorem edited_foreign (h : s.leased p) (hh : s.seq.staging.holder ≠ some p) (tag : Byte) (f : Staging → Option Staging) :
    edited p tag f s = .next (respond p tag ⟨.state, []⟩ s) :=
  next_leased h tag (if_pos (bne_iff_ne.mpr hh))

/-- An edit by the holder is refused where the staging has none. -/
theorem edited_refused (h : s.leased p) (hh : s.seq.staging.holder = some p) (tag : Byte) (hf : f s.seq.staging = none) :
    edited p tag f s = .next (respond p tag ⟨.range, []⟩ s) := by
  refine next_leased h tag ((if_neg (by simp [hh])).trans ?_)
  rw [hf]
  rfl

/-- An edit by the holder replaces the staging, and answers with its pointer and length. -/
theorem edited_taken (h : s.leased p) (hh : s.seq.staging.holder = some p) (tag : Byte) {g : Staging}
    (hf : f s.seq.staging = some g) :
    edited p tag f s = .next (respond p tag ⟨.ok, [byte g.pointer.val, byte g.length]⟩ (setStaging g s)) := by
  refine next_leased h tag ((if_neg (by simp [hh])).trans ?_)
  rw [hf]
  rfl

/-- Settles O26: the three requests are edits of the staging, each by its own parameter. -/
theorem stagingEditsFollowTheirTable : Obligations.StagingEditsFollowTheirTable := by
  intro s p tag x h
  refine ⟨fun hl => ?_, fun hl hh => ?_, fun hl hh => ?_⟩
  · have refused := edited_noLease h hl tag
    exact ⟨refused _, refused _, refused _⟩
  · have refused := edited_foreign ⟨h, hl⟩ hh tag
    exact ⟨refused _, refused _, refused _⟩
  · have refused {f : Staging → Option Staging} := edited_refused (f := f) ⟨h, hl⟩ hh tag
    have taken {f : Staging → Option Staging} {g : Staging} := edited_taken (f := f) (g := g) ⟨h, hl⟩ hh tag
    refine ⟨fun hx => ⟨refused ?_, refused ?_⟩, fun hx => refused ?_, fun i hi => taken ?_, fun t ht => taken ?_,
      fun hx => taken ?_⟩
    · rw [trayOf_none hx]
      rfl
    · rw [trayOf_none hx]
      rfl
    · rw [within_none (Or.inr hx)]
      rfl
    · rw [hi]
      rfl
    · rw [ht]
      rfl
    · rw [within_some (Nat.zero_le _) hx]
      rfl

/-! ### The refusals of PLAN_COMMIT -/

/-- A position that a commit accepts: a tray without a bad mark. -/
def StagePos.sound (q : StagePos) : Prop := ∃ t, q = { tray := some t, bad := false }

theorem StagePos.sound_iff (q : StagePos) : q.sound ↔ (q.tray.isNone || q.bad) = false := by
  obtain ⟨t, b⟩ := q
  cases t <;> cases b <;> simp [StagePos.sound]

/-- The lowest judged position that is not sound. -/
theorem badPosition_some {g : Staging} {i : Nat} (hi : i < g.judged.length) (hbad : ¬(g.judged[i]).sound)
    (hlow : ∀ j (hj : j < i), (g.judged[j]).sound) : g.badPosition = some i := by
  refine List.findIdx?_eq_some_iff_getElem.mpr ⟨hi, ?_, fun j hj => ?_⟩
  · rwa [StagePos.sound_iff, Bool.not_eq_false] at hbad
  · rw [(StagePos.sound_iff _).mp (hlow j hj)]
    exact Bool.false_ne_true

/-- The judged positions list trays when each is sound. -/
theorem judged_trays {g : Staging} (h : ∀ q ∈ g.judged, q.sound) :
    ∃ ts : List TrayId, g.judged = ts.map fun t => { tray := some t, bad := false } := by
  have hr : g.judged ∈ Set.range (List.map fun t : TrayId => ({ tray := some t, bad := false } : StagePos)) := by
    rw [Set.range_list_map]
    intro q hq
    obtain ⟨t, ht⟩ := h q hq
    exact ⟨t, ht.symm⟩
  obtain ⟨ts, hts⟩ := hr
  exact ⟨ts, hts.symm⟩

/-- The first repeat of a list is the lowest index whose member stands before it. -/
theorem firstRepeat_some {ts : List TrayId} {i j : Nat} (hj : j < i) (hi : i < ts.length) (he : ts[j]? = ts[i]?)
    (hnodup : (ts.take i).Nodup) : firstRepeat ts = some i := by
  have early (k : Nat) (hk : k < i) : ((ts[k]?).any fun t => (ts.take k).contains t) = false := by
    have hnone := firstRepeat_nodup hnodup
    unfold firstRepeat at hnone
    rw [List.find?_eq_none] at hnone
    have := hnone k (by rw [List.mem_range, List.length_take]; omega)
    rwa [List.getElem?_take_of_lt hk, List.take_take, Nat.min_eq_left hk.le, Bool.not_eq_true] at this
  have here : ((ts[i]?).any fun t => (ts.take i).contains t) = true := by
    rw [← he, List.getElem?_eq_getElem (hj.trans hi), Option.any_some, List.contains_iff_mem, List.mem_take_iff_getElem]
    exact ⟨j, by omega, rfl⟩
  unfold firstRepeat
  rw [List.find?_range_eq_some]
  exact ⟨here, List.mem_range.mpr hi, fun k hk => by rw [early k hk]; rfl⟩

/-- Settles O27: each refusal by the first judgement that fails. -/
theorem planCommitJudgesTheCopy : Obligations.PlanCommitJudgesTheCopy := by
  intro s p tag h
  refine ⟨fun hh => next_leased h tag (if_pos (bne_iff_ne.mpr hh)), fun i hh hi hbad hlow => next_leased h tag ?_,
    fun i j hh hall hj hi he hnodup => next_leased h tag ?_⟩
  · have sound_getElem (k : Nat) (hk : k < s.seq.staging.judged.length) : (∃ t, s.seq.staging.judged[k]? =
        some { tray := some t, bad := false }) ↔ (s.seq.staging.judged[k]).sound := by
      simp only [List.getElem?_eq_getElem hk, Option.some.injEq]
      rfl
    have hfirst : s.seq.staging.badPosition = some i := badPosition_some hi (fun hs => hbad ((sound_getElem i hi).mpr hs))
      fun k hk => (sound_getElem k (hk.trans hi)).mp (hlow k hk)
    refine (if_neg (by simp [hh])).trans ?_
    rw [hfirst]
  · obtain ⟨ts, hts⟩ : ∃ ts : List TrayId, s.seq.staging.judged = ts.map fun t => { tray := some t, bad := false } := by
      refine judged_trays fun q hq => ?_
      obtain ⟨k, hk, rfl⟩ := List.getElem_of_mem hq
      obtain ⟨t, ht⟩ := hall k hk
      exact ⟨t, Option.some.inj ((List.getElem?_eq_getElem hk).symm.trans ht)⟩
    have inj : Function.Injective fun t : TrayId => ({ tray := some t, bad := false } : StagePos) := fun a b e => by
      simpa using e
    obtain ⟨hbad, htrays⟩ := judged_sound hts
    change i < s.seq.staging.judged.length at hi
    change s.seq.staging.judged[j]? = s.seq.staging.judged[i]? at he
    change (s.seq.staging.judged.take i).Nodup at hnodup
    rw [hts, List.length_map] at hi
    rw [hts, List.getElem?_map, List.getElem?_map] at he
    rw [hts, ← List.map_take] at hnodup
    refine (if_neg (by simp [hh])).trans ?_
    rw [hbad, htrays, firstRepeat_some hj hi (Option.map_injective inj he) (hnodup.of_map _)]

end Sys2Proof.Machine
end

section
/-! SUPPORT. SET_TIMING at a leased port: the ranges of its settings, what it does to the timers, and the end of its event when
that owes a start opportunity at most (R62, R74, R109, R124, R142). -/

namespace Sys2Proof.Machine

variable {s u : State} {p : Port}

/-! ### The end of an event that owes a start opportunity at most -/

/-- What an event owes that has reported a start opportunity and nothing else (R64). -/
def Agenda.offers : Agenda := { Agenda.none with opportunity := true }

theorem opportunity_offers (h : s.agenda = Agenda.none) : (opportunity s).agenda = Agenda.offers := by
  rw [opportunity_agenda, h]
  rfl

theorem gapStarts_disallowed (h : s.startAllowed = false) (n : Nat) : gapStarts n s = s := by
  cases n with
  | zero => rfl
  | succ n => simp [gapStarts, h]

/-- A start opportunity that allows no start is only taken off what is owed. -/
theorem offerStart_disallowed (h : s.startAllowed = false) :
    offerStart s = s.setAgenda { s.agenda with opportunity := false } := by
  have hn := gapStarts_disallowed (s := s.setAgenda { s.agenda with opportunity := false }) h 4
  unfold offerStart
  dsimp only
  rw [hn, ite_self]

/-- An event that owes a start opportunity alone ends with it, when that leaves no pass due. -/
theorem finish_offers (ho : s.agenda = Agenda.offers) (ha : (offerStart s).agenda.admission = false) :
    finish s = (offerStart s).setAgenda .none := by
  have hc : endClaim s = s := by
    have e : s.setAgenda { s.agenda with admission := false, shortfall := false } = s := by
      rw [ho]
      exact (congrArg (fun a => s.setAgenda a) ho).symm
    unfold endClaim
    simp only [e]
    simp [ho, Agenda.offers, Agenda.none]
  have hr : finishRounds 33 s = offerStart s := by
    unfold finishRounds
    simp only [hc]
    rw [if_pos (by rw [ho]; rfl), if_neg (by rw [ha]; exact Bool.false_ne_true)]
  rw [finish, hr]

/-- An event that owes a start opportunity at most, and may not start a tray, changes nothing more. -/
theorem finish_disallowed (ho : s.agenda = Agenda.none ∨ s.agenda = Agenda.offers) (h : s.startAllowed = false) :
    finish s = s.setAgenda .none := by
  rcases ho with ho | ho
  · rw [finish_none ho, ← ho]
    rfl
  · rw [finish_offers ho (by rw [offerStart_disallowed h, ho]; rfl), offerStart_disallowed h]
    rfl

theorem startAllowed_empty (h : s.queue = []) : s.startAllowed = false := by simp [State.startAllowed, h]

/-! ### The settings -/

/-- A window length is within its range (R62). -/
def windowGood (w : Half) : Prop := 10 ≤ w.toNat ∧ w.toNat ≤ 60000

/-- Every setting of SET_TIMING lies in its range, and the settings agree (R142). -/
def timingGood (f : TimingFields) : Prop :=
  f.mode.toNat ≤ 1 ∧ f.interval.toNat ≤ 60000 ∧ ¬(f.mode = 1 ∧ f.interval = 0) ∧ 1 ≤ f.k.toNat ∧
    f.k.toNat ≤ 4 ∧ windowGood f.w0 ∧ windowGood f.w1 ∧ windowGood f.w2 ∧ f.s1.toNat + f.s2.toNat + f.s3.toNat ≤ 32767 ∧
    100 ≤ f.qualification.toNat ∧ f.qualification.toNat ≤ 60000 ∧ 1 ≤ f.reply.toNat ∧ f.reply.toNat ≤ 20 ∧
    20 ≤ f.census.toNat ∧ f.census.toNat ≤ 2000

/-- The pace mode that SET_TIMING names (R163). -/
def timingPace (f : TimingFields) : PaceMode := if f.mode = 0 then .gap else .cadence

theorem paceModeOf_good {f : TimingFields} (h : f.mode.toNat ≤ 1) : paceModeOf f.mode = some (timingPace f) := by
  unfold paceModeOf timingPace
  by_cases h0 : f.mode = 0
  · simp [h0]
  · have h1 : f.mode = 1 := BitVec.eq_of_toNat_eq (by
      have : f.mode.toNat ≠ 0 := fun e => h0 (BitVec.eq_of_toNat_eq e)
      show f.mode.toNat = 1
      omega)
    simp [h1]

theorem paceModeOf_isSome (b : Byte) : (paceModeOf b).isSome = true ↔ b.toNat ≤ 1 := by
  unfold paceModeOf
  split
  · subst_vars
    simp
  · split
    · subst_vars
      simp
    · rename_i h0 h1
      have hne0 : b.toNat ≠ 0 := fun e => h0 (BitVec.eq_of_toNat_eq e)
      have hne1 : b.toNat ≠ 1 := fun e => h1 (BitVec.eq_of_toNat_eq e)
      simp only [Option.isSome_none, Bool.false_eq_true, false_iff]
      omega

theorem timing_inRange_iff (f : TimingFields) : TimingFields.inRange f = true ↔ timingGood f := by
  simp only [TimingFields.inRange, timingGood, windowInRange, windowGood, Bool.and_eq_true, decide_eq_true_eq,
    paceModeOf_isSome, Bool.not_eq_true', Bool.and_eq_false_iff, beq_eq_false_iff_ne, and_assoc, ne_eq, not_and_or]

/-- The code of the pace mode that is named is the byte that names it. -/
theorem pace_code {f : TimingFields} (h : f.mode.toNat ≤ 1) : byte (timingPace f).code = f.mode := by
  have hm := paceModeOf_good h
  unfold paceModeOf at hm
  split at hm
  · rename_i e
    rw [← Option.some.inj hm, e]
    rfl
  · split at hm
    · rename_i e
      rw [← Option.some.inj hm, e]
      rfl
    · exact absurd hm (by simp)

theorem nat2_toNat (w : Half) : nat2 w.toNat = bytes2 w := by simp [nat2]

theorem byte_toNat (b : Byte) : byte b.toNat = b := by simp [byte]

/-- The answer to SET_TIMING lays out its settings as the request did. -/
theorem timingTaken_payload {f : TimingFields} (h : timingGood f) (s : State) :
    (timingTaken p (timingPace f) f s).timingPayload = timingFieldBytes f := by
  show [byte (timingPace f).code] ++ nat2 f.interval.toNat ++ [byte f.k.toNat] ++ nat2 f.w0.toNat ++ nat2 f.w1.toNat
    ++ nat2 f.w2.toNat ++ nat2 f.s1.toNat ++ nat2 f.s2.toNat ++ nat2 f.s3.toNat ++ nat2 f.qualification.toNat
    ++ [byte f.reply.toNat] ++ nat2 f.census.toNat = timingFieldBytes f
  simp only [nat2_toNat, byte_toNat, pace_code h.1]
  rfl

/-- Moves of the blocks leave the settings of SET_TIMING, and so the answer. -/
theorem Evolves.timingPayload (h : Evolves s u) : u.timingPayload = s.timingPayload := by
  have ht := h.same .timing
  have hs : u.sense = s.sense := h.same .sense
  simp only [Part.same, Prod.mk.injEq] at ht
  unfold State.timingPayload
  simp only [ht, hs]

/-! ### The timers -/

/-- A pace timer under a new mode and interval that give no start opportunity (R62). -/
def State.pacedFor (mode : PaceMode) (interval : Nat) (s : State) : Option Nat :=
  if s.seq.paceMode ≠ mode then (if s.queue = [] then none else some interval)
  else if s.seq.paceInterval = interval ∨ s.seq.paceTimer = none then s.seq.paceTimer
  else some interval

theorem paceChanged_calm {mode : PaceMode} {n : Nat} (hm : ¬(s.seq.paceMode ≠ mode ∧ mode = .gap))
    (hi : ¬(mode = .gap ∧ n = 0 ∧ s.seq.paceInterval ≠ 0 ∧ s.seq.paceTimer.isSome = true)) :
    paceChanged mode n s = s.setPace (s.pacedFor mode n) := by
  unfold paceChanged State.pacedFor
  by_cases hc : s.seq.paceMode ≠ mode
  · rw [if_pos hc, if_pos hc]
    cases mode with
    | gap => exact absurd ⟨hc, rfl⟩ hm
    | cadence => simp only [List.isEmpty_iff]
  · rw [if_neg hc, if_neg hc]
    by_cases hr : s.seq.paceInterval = n ∨ s.seq.paceTimer = none
    · rw [if_pos hr, if_neg]
      · rfl
      · rintro ⟨hne, hsome⟩
        rcases hr with hr | hr
        · exact hne hr
        · simp [hr] at hsome
    · obtain ⟨hne, hsome⟩ := not_or.mp hr
      have hsome : s.seq.paceTimer.isSome = true := Option.isSome_iff_ne_none.mpr hsome
      rw [if_neg hr, if_pos ⟨hne, hsome⟩, if_neg]
      rintro ⟨hg, hz⟩
      exact hi ⟨hg, hz, fun e => hne (e.trans hz.symm), hsome⟩

/-- An accepted SET_TIMING that gives no start opportunity writes its settings and its timers, and ends there. -/
theorem timingTaken_calm {mode : PaceMode} {f : TimingFields} (ho : s.agenda = Agenda.none) (hk : ¬s.seq.k < f.k.toNat)
    (hm : ¬(s.seq.paceMode ≠ mode ∧ mode = .gap))
    (hi : ¬(mode = .gap ∧ f.interval.toNat = 0 ∧ s.seq.paceInterval ≠ 0 ∧ s.seq.paceTimer.isSome = true)) :
    finish (timingTaken p mode f s) =
      settingsEntry p 0x32 (timingSet mode f (s.setPace (s.pacedFor mode f.interval.toNat))) := by
  have htimers : timingTimers mode f s = s.setPace (s.pacedFor mode f.interval.toNat) := by
    unfold timingTimers
    rw [paceChanged_calm hm hi]
    exact if_neg hk
  rw [timingTaken_eq, htimers]
  exact finish_none ho

/-- An accepted SET_TIMING owes a start opportunity at most. -/
theorem timingTaken_owes (h : s.agenda = Agenda.none) (mode : PaceMode) (f : TimingFields) :
    (timingTaken p mode f s).agenda = Agenda.none ∨ (timingTaken p mode f s).agenda = Agenda.offers := by
  have hp : (paceChanged mode f.interval.toNat s).agenda = Agenda.none ∨
      (paceChanged mode f.interval.toNat s).agenda = Agenda.offers := by
    unfold paceChanged
    split
    · cases mode with
      | gap => exact Or.inr (opportunity_offers h)
      | cadence => exact Or.inl h
    · split
      · split
        · exact Or.inr (opportunity_offers h)
        · exact Or.inl h
      · exact Or.inl h
  show (timingTimers mode f s).agenda = _ ∨ (timingTimers mode f s).agenda = _
  unfold timingTimers
  split
  · refine Or.inr ?_
    rw [opportunity_agenda]
    rcases hp with hp | hp <;> (rw [hp]; rfl)
  · exact hp

/-- A change to GAP stops the pace timer, and leaves the queue as it is. -/
theorem timingTaken_toGap (hc : s.seq.paceMode ≠ .gap) (f : TimingFields) :
    (timingTaken p .gap f s).seq.paceTimer = none ∧ (timingTaken p .gap f s).queue = s.queue := by
  have hp : paceChanged .gap f.interval.toNat s = opportunity (s.setPace none) := if_pos hc
  show (timingTimers .gap f s).seq.paceTimer = none ∧ (timingTimers .gap f s).queue = s.queue
  unfold timingTimers
  rw [hp]
  split <;> exact ⟨rfl, rfl⟩

/-! ### SET_TIMING at a leased port -/

theorem setTiming_refused (h : s.leased p) (tag : Byte) {f : TimingFields} (hf : ¬timingGood f) :
    exec (.setTiming p tag f) s = .next (respond p tag ⟨.range, []⟩ s) :=
  next_leased h tag (by rw [if_neg (mt (timing_inRange_iff f).mp hf)]; rfl)

theorem setTiming_taken (h : s.leased p) (tag : Byte) {f : TimingFields} (hf : timingGood f) :
    exec (.setTiming p tag f) s =
      .next (respond p tag ⟨.ok, timingFieldBytes f⟩ (finish (timingTaken p (timingPace f) f s))) := by
  refine next_leased h tag ?_
  rw [if_pos ((timing_inRange_iff f).mpr hf), paceModeOf_good hf.1]
  show answerAfter .ok State.timingPayload (timingTaken p (timingPace f) f s) = _
  rw [answerAfter, (finish_evolves _).timingPayload, timingTaken_payload hf]

/-- Settles O31: the settings are written before the event ends and kept by its end, which has a start to offer at most. -/
theorem setTimingReplacesItsGroup : Obligations.SetTimingReplacesItsGroup := by
  intro s p tag f h
  refine ⟨fun hf => setTiming_refused h tag (f := f) hf, fun hf => ?_⟩
  change timingGood f at hf
  have hexec := setTiming_taken h tag hf
  have before := (timingTimers_evolves (timingPace f) f s).sameUnits
  have after := finish_evolves (timingTaken p (timingPace f) f s)
  have htiming := after.same .timing
  simp only [Part.same, Prod.mk.injEq] at htiming
  obtain ⟨_, hqual, ⟨hs1, hs2, hs3⟩, ⟨hmode, hinterval, hk⟩, hw0, hw1, hw2⟩ := htiming
  have hlink : (finish (timingTaken p (timingPace f) f s)).link = { s.link with replyTimeout := f.reply.toNat } :=
    after.sameUnits.link.trans (by rw [← before.link]; rfl)
  have hsense : (finish (timingTaken p (timingPace f) f s)).sense = { s.sense with
      interval := f.census.toNat
      timer := if s.sense.interval = f.census.toNat then s.sense.timer else some f.census.toNat } :=
    after.sameUnits.sense.trans (by rw [← before.sense]; rfl)
  refine ⟨⟨_, hexec, ⟨hmode, hinterval, hk⟩, ⟨hw0, hw1, hw2⟩, ⟨hs1, hs2, hs3⟩, hqual, hlink, hsense, fun hc hg hq => ?_⟩,
    fun hno => ?_⟩
  · change timingPace f = .gap at hg
    change s.seq.paceMode ≠ timingPace f at hc
    rw [hg] at hc ⊢
    obtain ⟨hnone, hqueue⟩ := timingTaken_toGap (p := p) hc f
    rw [finish_disallowed (timingTaken_owes h.1.1.2 ..) (startAllowed_empty (hqueue.trans hq))]
    exact hnone
  · obtain ⟨hk, hno⟩ := not_or.mp hno
    obtain ⟨hm, hi⟩ := not_or.mp hno
    rw [hexec, timingTaken_calm (mode := timingPace f) h.1.1.2 hk hm hi]
    rfl

end Sys2Proof.Machine
end

section
/-! SUPPORT. One start, written out, and the two expiries of the Power-Up Sequencer: the pace timer's and a window's (R63 to
R70). -/

namespace Sys2Proof.Machine

variable {s u v : State} {t n : TrayId} {j : SlotId}

/-! ### A tray that leaves the Start Queue -/

/-- A tray leaves the Start Queue, and CADENCE stops the pace timer at an empty queue (R13, R65). -/
theorem dequeue_eq (t : TrayId) (s : State) : dequeue t s = { s with
    queue := s.queue.filter (· != t)
    seq := { s.seq with paceTimer :=
      if s.seq.paceMode = .cadence ∧ s.queue.filter (· != t) = [] then none else s.seq.paceTimer } } := by
  unfold dequeue
  by_cases hc : s.seq.paceMode = .cadence ∧ s.queue.filter (· != t) = []
  · have hb : (s.seq.paceMode == .cadence && (s.queue.filter (· != t)).isEmpty) = true := by
      rw [hc.1, hc.2]
      rfl
    simp only [hb, if_true, if_pos hc]
    rfl
  · have hb : (s.seq.paceMode == .cadence && (s.queue.filter (· != t)).isEmpty) = false := by
      simpa only [Bool.and_eq_false_iff, Decidable.not_and_iff_or_not, beq_eq_false_iff_ne, List.isEmpty_eq_false_iff]
        using hc
    simp only [hb, Bool.false_eq_true, if_false, if_neg hc]

/-! ### One start -/

theorem unlocked_of_not_held (h : s.held t = false) : (s.tray t).locked = false := by
  simp only [State.held, Bool.or_eq_false_iff] at h
  exact h.2

/-- The record of an unlocked QUEUED tray that is started (R4, R66). -/
def Tray.started (r : Tray) : Tray :=
  { r with
    state := .inrush, commitment := max r.cfg.inrush r.grant, revision := r.revision + 1, faultCause := none
    adopted := false }

theorem enter_started {r : Tray} (hl : r.locked = false) : r.enter .inrush r.grant none = r.started := by
  have hb : (TrayState.inrush == TrayState.run) = false := rfl
  simp only [Tray.enter, Tray.started, Tray.commitFor, TrayState.keepsMarks, hl, hb, Bool.and_true, Bool.and_false,
    Bool.false_eq_true, if_false]

/-- The pace timer after a start of a tray (R65, R66). -/
def State.paceStarted (t : TrayId) (s : State) : Option Nat :=
  if s.seq.paceMode = .gap then (if s.seq.paceInterval = 0 then s.seq.paceTimer else some s.seq.paceInterval)
  else if s.queue.filter (· != t) = [] then none else s.seq.paceTimer

/-- The state after a start of an unlocked QUEUED tray in a slot (R66, R67). -/
def State.startedIn (j : SlotId) (t : TrayId) (s : State) : State :=
  let len := s.seq.windowLength (s.cfg t).window
  journalise .start (some (.tray t)) (some len) (some (.number j.val)) { s.claimed t (s.tray t).started with
    queue := s.queue.filter (· != t)
    seq := { s.seq with
      paceTimer := s.paceStarted t
      slots := s.seq.slots.set j (some { tray := t, window := (s.cfg t).window, length := len, report := .none,
                                         remaining := len, start := s.seq.starts })
      starts := s.seq.starts + 1 } }

/-- A QUEUED tray enters INRUSH: it leaves the queue and its record is replaced. -/
theorem move_inrush_of_queued (hq : (s.tray t).state = .queued) (hl : (s.tray t).locked = false) :
    move t .inrush (s.tray t).grant none s = (dequeue t s).putTray t (s.tray t).started := by
  have ht : (dequeue t s).tray t = s.tray t := tray_congr (dequeue_trays t s) t
  have hleave : leaveCollection t s = dequeue t s := by
    unfold leaveCollection
    rw [hq]
  rw [move_inrush_eq, moveBare_eq]
  unfold leaveAndPut joinCollection
  simp only [TrayState.keepsMarks, Bool.not_true, Bool.and_false, Bool.false_eq_true, if_false, hleave, ht,
    enter_started hl]

theorem ite_setPace {c : Prop} [Decidable c] (v : Option Nat) (s : State) :
    (if c then s.setPace v else s) = s.setPace (if c then v else s.seq.paceTimer) := by
  split <;> rfl

/-- The pace timer that the steps of a start leave: the queue's, and then the start's own (R65, R66). -/
theorem paceStarted_eq (t : TrayId) (s : State) :
    (if (s.seq.paceMode == .gap && decide (0 < s.seq.paceInterval)) = true then some s.seq.paceInterval
      else if s.seq.paceMode = .cadence ∧ s.queue.filter (· != t) = [] then none else s.seq.paceTimer) =
      s.paceStarted t := by
  unfold State.paceStarted
  cases hm : s.seq.paceMode with
  | gap =>
    by_cases hz : s.seq.paceInterval = 0
    · simp [hz]
    · simp [hz, Nat.pos_of_ne_zero hz]
  | cadence => simp

/-- A start, but for what it leaves owed of a fall of committed. -/
theorem startTray_eq (hq : (s.tray t).state = .queued) (hl : (s.tray t).locked = false) (j : SlotId) :
    ∃ b, startTray t j s = (s.startedIn j t).setAgenda { s.agenda with fell := b } := by
  refine ⟨s.agenda.fell || decide ((s.tray t).started.commitment < (s.tray t).commitment), ?_⟩
  unfold startTray State.startedIn
  dsimp only
  rw [move_inrush_of_queued hq hl, dequeue_eq, ite_setPace, ← paceStarted_eq]
  rfl

/-- The first tray of the queue that is not held starts, when it is QUEUED and its part passes its check (R66 step 1). -/
theorem startFirst_held {ahead rest : List TrayId} (ha : ∀ x ∈ ahead, s.held x = true) (hq : (s.tray t).state = .queued)
    (hh : s.held t = false) (hc : (s.tray t).code = .matching) (hj : s.freeSlot? = some j) :
    startFirst (ahead ++ t :: rest) s = (startTray t j s, true) := by
  have hl : (s.tray t).locked = false := unlocked_of_not_held hh
  have hread : checkRead t s = s := checkRead_passes (by simp [Tray.failsCheck, hc])
  induction ahead with
  | nil => simp [startFirst, hq, hh, hread, hl, hj]
  | cons x xs ih =>
    rw [List.cons_append, startFirst, if_pos (by simp [ha x (by simp)])]
    exact ih fun y hy => ha y (by simp [hy])

/-! ### After a start -/

theorem startedIn_slot (j k : SlotId) (t : TrayId) (s : State) : ((s.startedIn j t).seq.slots[k]).isSome =
    (decide (k = j) || (s.seq.slots[k]).isSome) := by
  simp only [State.startedIn, journalise_seq, Fin.getElem_fin, Vector.getElem_set, Fin.ext_iff]
  by_cases hk : j.val = k.val
  · simp [hk]
  · simp [hk, Ne.symm hk]

/-- A start takes one more slot (R63). -/
theorem startedIn_inrushCount (hj : s.seq.slots[j] = none) (t : TrayId) :
    (s.startedIn j t).inrushCount = s.inrushCount + 1 := by
  have hnodup (p : SlotId → Bool) : ((List.finRange 4).filter p).Nodup := (List.nodup_finRange 4).filter p
  have hfree : j ∉ (List.finRange 4).filter fun k => (s.seq.slots[k]).isSome := fun hm => by
    have hsome := (List.mem_filter.mp hm).2
    rw [hj] at hsome
    exact Bool.false_ne_true hsome
  have hperm : ((List.finRange 4).filter fun k => ((s.startedIn j t).seq.slots[k]).isSome).Perm
      (j :: (List.finRange 4).filter fun k => (s.seq.slots[k]).isSome) := by
    refine (List.perm_ext_iff_of_nodup (hnodup _) (List.nodup_cons.mpr ⟨hfree, hnodup _⟩)).mpr fun k => ?_
    simp only [List.mem_filter, List.mem_cons, List.mem_finRange, true_and, startedIn_slot, Bool.or_eq_true,
      decide_eq_true_eq]
  exact hperm.length_eq

theorem startedIn_held (hn : n ≠ t) : (s.startedIn j t).held n = s.held n := by
  have ht : (s.startedIn j t).tray n = s.tray n := (claimed_tray t n _ s).trans (if_neg hn)
  exact held_congr (s := s) (u := s.startedIn j t) rfl rfl (congrArg Tray.locked ht) (congrArg (fun r => r.cfg.zone) ht)

/-- No further start is allowed when the count has reached K, or every other tray of the queue is held (R64). -/
theorem startedIn_disallowed (hj : s.seq.slots[j] = none)
    (h : s.inrushCount + 1 = s.seq.k ∨ ∀ x ∈ s.queue, x ≠ t → s.held x = true) :
    (s.startedIn j t).startAllowed = false := by
  rcases h with h | h
  · have hk : ¬(s.startedIn j t).inrushCount < (s.startedIn j t).seq.k := by
      rw [startedIn_inrushCount hj]
      exact Nat.not_lt.mpr h.ge
    simp [State.startAllowed, hk]
  · have hall : (s.startedIn j t).queue.any (fun x => !(s.startedIn j t).held x) = false := by
      rw [List.any_eq_false]
      intro x hx
      obtain ⟨hx, hne⟩ := List.mem_filter.mp (show x ∈ s.queue.filter (· != t) from hx)
      have hne : x ≠ t := by simpa using hne
      rw [startedIn_held hne, h x hx hne]
      exact Bool.false_ne_true
    simp [State.startAllowed, hall]

/-! ### The pace timer's expiry -/

/-- A running core takes its events (log entry 6). -/
theorem coreEvent_running (h : s.running) (f : State → State) : coreEvent f s = f s := by
  simp only [coreEvent, h.1, Bool.false_eq_true, if_false]

theorem exec_paceExpiry (h : s.running) : exec .paceExpiry s = .next (paceExpired s) :=
  congrArg Host.Outcome.next (coreEvent_running h _)

theorem exec_paceExpiry_gap (h : s.running) (hp : s.seq.paceTimer.isSome = true) (hm : s.seq.paceMode = .gap) :
    exec .paceExpiry s = .next (finish (opportunity (s.setPace none))) := by
  rw [exec_paceExpiry h]
  unfold paceExpired
  rw [if_neg (by simp [Option.isSome_iff_ne_none.mp hp]), hm]

theorem exec_paceExpiry_cadence (h : s.running) (hp : s.seq.paceTimer.isSome = true) (hm : s.seq.paceMode = .cadence) :
    exec .paceExpiry s = .next (finish (cadenceStart (s.setPace (some s.seq.paceInterval)))) := by
  rw [exec_paceExpiry h]
  unfold paceExpired
  rw [if_neg (by simp [Option.isSome_iff_ne_none.mp hp]), hm]

/-- A start opportunity in GAP with the timer idle takes one start, and no other when the interval is not 0 or no other is
allowed (R64). -/
theorem gapStarts_one {k : Nat} (hp : s.seq.paceTimer = none) (ha : s.startAllowed = true)
    (hs : startFirst s.queue s = (u, true)) (hmore : u.seq.paceInterval = 0 → u.startAllowed = false) :
    gapStarts (k + 1) s = u := by
  unfold gapStarts
  rw [if_pos (by simp [hp, ha]), hs]
  dsimp only
  by_cases hz : u.seq.paceInterval = 0
  · rw [if_pos (by simp [hz])]
    exact gapStarts_disallowed (hmore hz) k
  · exact if_neg (by simp [hz])

/-- An event whose start opportunity starts one tray in GAP, with nothing else owed. -/
theorem finish_starts {ahead rest : List TrayId} (ho : s.agenda = Agenda.none) (hm : s.seq.paceMode = .gap)
    (hp : s.seq.paceTimer = none) (ha : s.startAllowed = true) (hqueue : s.queue = ahead ++ t :: rest)
    (hahead : ∀ x ∈ ahead, s.held x = true) (hq : (s.tray t).state = .queued) (hh : s.held t = false)
    (hc : (s.tray t).code = .matching) (hj : s.freeSlot? = some j)
    (hmore : s.seq.paceInterval = 0 → s.inrushCount + 1 = s.seq.k ∨ ∀ x ∈ s.queue, x ≠ t → s.held x = true) :
    finish (opportunity s) = s.startedIn j t := by
  obtain ⟨b, hb⟩ := startTray_eq hq (unlocked_of_not_held hh) j
  have hfirst : startFirst s.queue s = (startTray t j s, true) := by
    rw [hqueue]
    exact startFirst_held hahead hq hh hc hj
  have hself : (opportunity s).setAgenda { (opportunity s).agenda with opportunity := false } = s := by
    show s.setAgenda { s.agenda with opportunity := false } = s
    rw [ho]
    exact (congrArg (fun a => s.setAgenda a) ho).symm
  have hoffer : offerStart (opportunity s) = (s.startedIn j t).setAgenda { s.agenda with fell := b } := by
    unfold offerStart
    rw [hself, if_pos (by rw [hm]; rfl), gapStarts_one hp ha hfirst fun hz => ?_, hb]
    rw [hb] at hz ⊢
    exact startedIn_disallowed (freeSlot?_free hj) (hmore hz)
  rw [finish_offers (opportunity_offers ho) (by rw [hoffer, ho]; rfl), hoffer]
  exact congrArg (fun a => (s.startedIn j t).setAgenda a) ho.symm

/-- An event that starts one tray in CADENCE, with nothing else owed. -/
theorem finish_cadence {ahead rest : List TrayId} (ho : s.agenda = Agenda.none) (hm : s.seq.paceMode = .cadence)
    (ha : s.startAllowed = true) (hqueue : s.queue = ahead ++ t :: rest)
    (hahead : ∀ x ∈ ahead, s.held x = true) (hq : (s.tray t).state = .queued) (hh : s.held t = false)
    (hc : (s.tray t).code = .matching) (hj : s.freeSlot? = some j) : finish (cadenceStart s) = s.startedIn j t := by
  obtain ⟨b, hb⟩ := startTray_eq hq (unlocked_of_not_held hh) j
  have hstart : cadenceStart s = (s.startedIn j t).setAgenda { s.agenda with fell := b } := by
    unfold cadenceStart
    rw [if_pos ha, hqueue, startFirst_held hahead hq hh hc hj]
    exact hb
  have hnormal : s.isNormal = true := by
    simp only [State.startAllowed, Bool.and_eq_true] at ha
    exact ha.1.2
  have hend : finish ((s.startedIn j t).setAgenda { s.agenda with fell := b }) = (s.startedIn j t).setAgenda .none :=
    finish_undue (Or.inl hm) (by rw [ho]; rfl) (warmRegain_normal (s := s) hnormal)
  rw [hstart, hend]
  exact congrArg (fun a => (s.startedIn j t).setAgenda a) ho.symm

/-- The pace timer after the expiry that a start follows (R64, R65, R66). -/
theorem paceStarted_expired (t : TrayId) (s : State) :
    (s.setPace (if s.seq.paceMode = .gap then none else some s.seq.paceInterval)).paceStarted t =
      if (if s.seq.paceMode = .gap then s.seq.paceInterval = 0 else s.queue.filter (· != t) = []) then none
      else some s.seq.paceInterval := by
  unfold State.paceStarted State.setPace
  by_cases hm : s.seq.paceMode = .gap
  · simp only [hm, if_true]
  · simp only [hm, if_false]

/-- Settles O40: an expiry is the end of an event that owes a start opportunity in GAP, and one start in CADENCE. -/
theorem paceExpiryStartsTheFirstTray : Obligations.PaceExpiryStartsTheFirstTray := by
  intro s h
  refine ⟨fun hp => ?_, fun hp ha hm => ?_, fun hp ha hm => ?_, fun ahead t rest j hp ha hqueue hahead hq hh hc hj hmore => ?_⟩
  · rw [exec_paceExpiry h, paceExpired, hp]
    rfl
  · have hend : finish (opportunity (s.setPace none)) = (s.setPace none).setAgenda .none :=
      finish_disallowed (Or.inr (opportunity_offers h.2)) ha
    rw [exec_paceExpiry_gap h hp hm, hend, ← h.2]
    rfl
  · have hnone : cadenceStart (s.setPace (some s.seq.paceInterval)) = s.setPace (some s.seq.paceInterval) :=
      if_neg fun hs => Bool.false_ne_true (ha.symm.trans hs)
    rw [exec_paceExpiry_cadence h hp hm, hnone]
    exact congrArg Host.Outcome.next (finish_none h.2)
  · have hexec : exec .paceExpiry s = .next ((s.setPace (if s.seq.paceMode = .gap then none
        else some s.seq.paceInterval)).startedIn j t) := by
      cases hm : s.seq.paceMode with
      | gap =>
        rw [exec_paceExpiry_gap h hp hm]
        exact congrArg Host.Outcome.next
          (finish_starts (s := s.setPace none) h.2 hm rfl ha hqueue hahead hq hh hc hj (hmore hm))
      | cadence =>
        rw [exec_paceExpiry_cadence h hp hm]
        exact congrArg Host.Outcome.next (finish_cadence (s := s.setPace _) h.2 hm ha hqueue hahead hq hh hc hj)
    rw [hexec]
    dsimp only
    rw [← paceStarted_expired]
    rfl

/-! ### A tray that leaves INRUSH -/

/-- An INRUSH tray's move frees its slot (R12, R71). -/
theorem moveBare_of_inrush {st : TrayState} (hi : (s.tray t).state = .inrush) (g : Nat) (c : Option FaultCause) :
    moveBare t st g c s = joinCollection t st ((freeSlot t (s.noted t st)).putTray t ((s.tray t).enter st g c)) := by
  obtain ⟨k, a, b, hk⟩ := noted_eq t st s
  have ht : (s.noted t st).tray t = s.tray t := by rw [hk]; rfl
  have hl : leaveCollection t (s.noted t st) = freeSlot t (s.noted t st) := by
    unfold leaveCollection
    rw [ht, hi]
  unfold moveBare
  change joinCollection t st ((leaveCollection t (s.noted t st)).putTray t
    (((leaveCollection t (s.noted t st)).tray t).enter st g c)) = _
  rw [hl, tray_congr (freeSlot_trays t _), ht]

theorem freeSlot_slot (t : TrayId) (s : State) (j : SlotId) : (freeSlot t s).seq.slots[j] =
    if (s.seq.slots[j]).any (fun w => w.tray == t) then none else s.seq.slots[j] := by
  simp [freeSlot, opportunity, State.setAgenda]

/-- A tray has left INRUSH for another state: its slots are free, the output and the queue are those of its new state, no other
record changes, and an event that would find nothing to do still finds nothing. -/
structure LeftInrush (t : TrayId) (st : TrayState) (s u : State) : Prop where
  freed : ∀ (j : SlotId) (w : Slot), s.seq.slots[j] = some w → w.tray = t → u.seq.slots[j] = none
  others : ∀ n, n ≠ t → u.tray n = s.tray n
  output : u.hold.enable[t] = st.enabled
  queue : u.queue = if st = .queued then s.queue ++ [t] else s.queue
  waits : s.startsWait → u.startsWait
  admits : s.nothingToAdmit → u.nothingToAdmit
  warm : u.warmRegain = s.warmRegain

/-- What writes neither the rack beside the tray's own record nor the Sequencer leaves what holds after a move. -/
theorem LeftInrush.beside {st : TrayState} (h : LeftInrush t st s u) (ht : ∀ n, n ≠ t → v.tray n = u.tray n)
    (hs : v.seq = u.seq) (he : v.hold = u.hold) (hq : v.queue = u.queue) (hp : v.park = u.park) (hh : v.hup = u.hup)
    (ha : v.acct = u.acct) : LeftInrush t st s v where
  freed j w hw hwt := by rw [hs]; exact h.freed j w hw hwt
  others n hn := (ht n hn).trans (h.others n hn)
  output := by rw [he]; exact h.output
  queue := hq.trans h.queue
  waits hw := by
    have := h.waits hw
    unfold State.startsWait at this ⊢
    rwa [hs]
  admits hn := by
    have := h.admits hn
    unfold State.nothingToAdmit State.isNormal State.isSettled at this ⊢
    rwa [hh, ha, hp]
  warm := by
    have := h.warm
    unfold State.warmRegain at this ⊢
    rwa [hh]

theorem LeftInrush.entry {st : TrayState} (h : LeftInrush t st s u) (k : Kind) (a : Option Subject) (v : Option Nat)
    (r : Option Reason) : LeftInrush t st s (journalise k a v r u) := h.beside (fun _ _ => rfl) rfl rfl rfl rfl rfl rfl

theorem LeftInrush.alarm {st : TrayState} (h : LeftInrush t st s u) (c : Alert) : LeftInrush t st s (raise c u) :=
  h.beside (fun _ _ => rfl) rfl rfl rfl rfl rfl rfl

theorem LeftInrush.due {st : TrayState} (h : LeftInrush t st s u) : LeftInrush t st s (admissionDue u) :=
  h.beside (fun _ _ => rfl) rfl rfl rfl rfl rfl rfl

theorem LeftInrush.record {st : TrayState} (h : LeftInrush t st s u) (r : Tray) : LeftInrush t st s (u.setRecord t r) :=
  h.beside (fun n hn => (setRecord_tray t n r u).trans (if_neg hn)) rfl rfl rfl rfl rfl rfl

/-- A move out of INRUSH to a state that is not PARKED. -/
theorem moveBare_leftInrush {st : TrayState} (hi : (s.tray t).state = .inrush) (hst : st ≠ .parked) (g : Nat)
    (c : Option FaultCause) : LeftInrush t st s (moveBare t st g c s) := by
  obtain ⟨k, a, b, hk⟩ := noted_eq t st s
  have heq := moveBare_of_inrush (st := st) hi g c
  rw [hk] at heq
  have hfreed (j : SlotId) (w : Slot) (hw : s.seq.slots[j] = some w) (hwt : w.tray = t) :
      (freeSlot t s).seq.slots[j] = none := by
    rw [freeSlot_slot, hw, if_pos (by simp [hwt])]
  have hother (n : TrayId) (hn : n ≠ t) : (moveBare t st g c s).tray n = s.tray n := by rw [moveBare_tray, if_neg hn]
  have hout : (moveBare t st g c s).hold.enable[t] = st.enabled := by
    rw [heq, joinCollection_hold]
    exact putTray_enable_self ..
  cases st with
  | parked => exact absurd rfl hst
  | queued =>
    rw [show joinCollection t .queued = enqueue t from rfl, enqueue_eq] at heq
    rw [heq] at hother hout ⊢
    refine ⟨hfreed, hother, hout, rfl, fun hw => ?_, id, rfl⟩
    rcases hw with hw | hw
    · exact Or.inl hw
    · refine Or.inr ?_
      show (if _ then some s.seq.paceInterval else s.seq.paceTimer).isSome = true
      split
      · rfl
      · exact hw
  | idle | inrush | run | isolated | faulted =>
    rw [heq] at hother hout ⊢
    exact ⟨hfreed, hother, hout, rfl, id, id, rfl⟩

/-- What holds after a move out of INRUSH holds of the tray with another record as well. -/
theorem LeftInrush.of_setRecord {st : TrayState} {r : Tray} (h : LeftInrush t st (s.setRecord t r) u) :
    LeftInrush t st s u :=
  ⟨h.freed, fun n hn => (h.others n hn).trans (by rw [setRecord_tray, if_neg hn]), h.output, h.queue, h.waits, h.admits, h.warm⟩

/-! ### A window's expiry -/

/-- A lawful INRUSH record has no adopted mark, no fault cause, and the commitment of its grant (R2, R4). -/
theorem lawful_inrush {r : Tray} (hl : r.lawful) (hi : r.state = .inrush) :
    r.adopted = false ∧ r.faultCause = none ∧ r.commitFor .inrush r.grant = r.commitment := by
  obtain ⟨hcommit, _, _, hadopted, hcause, _⟩ := hl
  rw [hi] at hcommit hadopted hcause
  refine ⟨?_, ?_, hcommit.symm⟩
  · rw [← Bool.not_eq_true]
    exact fun h => absurd (hadopted h) (by decide)
  · rw [← Option.not_isSome_iff_eq_none]
    exact fun h => absurd (hcause.mp h) (by decide)

/-- The record of a tray whose start has succeeded, before its tries are reloaded (R69). -/
def Tray.ran (r : Tray) : Tray :=
  { r with state := .run, commitment := r.grant, revision := r.revision + 1 }

theorem enter_ran {r : Tray} (hl : r.lawful) (hi : r.state = .inrush) : r.enter .run r.grant none = r.ran := by
  obtain ⟨hadopted, hcause, _⟩ := lawful_inrush hl hi
  simp only [Tray.enter, Tray.ran, Tray.commitFor, TrayState.keepsMarks, hadopted, hcause, Bool.and_true, Bool.false_and]

/-- A tray that is not locked gets its start tries back (R69). -/
def Tray.reloaded (r : Tray) : Tray := { r with triesLeft := if r.locked = true then r.triesLeft else r.cfg.tries }

theorem reloaded_locked {r : Tray} (h : r.locked = true) : r.reloaded = r := by rw [Tray.reloaded, if_pos h]

theorem reloaded_unlocked {r : Tray} (h : r.locked = false) : r.reloaded = { r with triesLeft := r.cfg.tries } := by
  simp only [Tray.reloaded, h, Bool.false_eq_true, if_false]

/-- A record with one try fewer (R70). -/
def Tray.tried (r : Tray) : Tray := { r with triesLeft := r.triesLeft - 1 }

/-- The record of a tray whose failed start is tried again (R70). -/
def Tray.retried (r : Tray) : Tray :=
  { r with state := .queued, revision := r.revision + 1, triesLeft := r.triesLeft - 1 }

theorem enter_retried {r : Tray} (hl : r.lawful) (hi : r.state = .inrush) :
    r.tried.enter .queued r.grant none = r.retried := by
  obtain ⟨hadopted, hcause, hcommit⟩ := lawful_inrush hl hi
  have hsame : r.tried.commitFor .queued r.grant = r.commitment := hcommit
  simp only [Tray.enter, hsame, TrayState.keepsMarks, Bool.and_true]
  simp only [Tray.tried, Tray.retried, hadopted, hcause, Bool.false_and]

/-- The record of a tray whose last try has failed (R70). -/
def Tray.failed (r : Tray) : Tray :=
  { r with
    state := .faulted, grant := 0, commitment := 0, revision := r.revision + 1, faultCause := some .start
    deferred := false, overCap := false }

theorem enter_failed {r : Tray} (hl : r.lawful) (hi : r.state = .inrush) :
    r.enter .faulted 0 (some .start) = r.failed := by
  obtain ⟨hadopted, _, _⟩ := lawful_inrush hl hi
  simp only [Tray.enter, Tray.failed, Tray.commitFor, TrayState.keepsMarks, hadopted, Bool.and_false, Bool.false_and]

/-- A successful start of a tray whose part passes its check (R69). -/
theorem startSucceeded_passes (hi : (s.tray t).state = .inrush) (hl : (s.tray t).lawful)
    (hc : (s.tray t).failsCheck = false) :
    LeftInrush t .run s (startSucceeded t s) ∧ (startSucceeded t s).tray t = (s.tray t).ran.reloaded := by
  have hleft := moveBare_leftInrush hi (show TrayState.run ≠ .parked by decide) (s.tray t).grant none
  have htray := moveBare_tray t .run (s.tray t).grant none s t
  rw [if_pos rfl, enter_ran hl hi] at htray
  unfold startSucceeded
  dsimp only
  rw [move_run_eq]
  generalize moveBare t .run (s.tray t).grant none s = w at hleft htray
  have hread : checkRead t w = w := checkRead_passes (by rw [htray]; exact hc)
  rw [hread, htray]
  by_cases hlock : (s.tray t).ran.locked = true
  · rw [if_pos hlock, reloaded_locked hlock]
    exact ⟨(hleft.entry ..).due, htray⟩
  · rw [if_neg hlock, reloaded_unlocked (Bool.not_eq_true _ ▸ hlock)]
    exact ⟨((hleft.record _).entry ..).due, setRecord_tray_self t _ w⟩

theorem startFailed_again (hn : 0 < (s.tray t).triesLeft) : startFailed t s = raise .startFail
    (journalise .startFail (some (.tray t)) (some ((s.tray t).triesLeft - 1)) (some .retry)
      (moveBare t .queued (s.tray t).grant none (s.setRecord t (s.tray t).tried))) := by
  unfold startFailed
  dsimp only
  rw [if_pos hn]
  rfl

theorem startFailed_last (hn : (s.tray t).triesLeft = 0) : startFailed t s = raise .startFail
    (admissionDue (journalise .startFail (some (.tray t)) (some 0) (some .faulted)
      (moveBare t .faulted 0 (some .start) s))) := by
  unfold startFailed
  dsimp only
  rw [if_neg (by omega)]
  rfl

/-- A failed start with tries left is queued again (R70). -/
theorem startFailed_retries (hi : (s.tray t).state = .inrush) (hl : (s.tray t).lawful) (hn : 0 < (s.tray t).triesLeft) :
    LeftInrush t .queued s (startFailed t s) ∧ (startFailed t s).tray t = (s.tray t).retried := by
  have hself := setRecord_tray_self t (s.tray t).tried s
  have hleft := moveBare_leftInrush (s := s.setRecord t (s.tray t).tried) (by rw [hself]; exact hi)
    (show TrayState.queued ≠ .parked by decide) (s.tray t).grant none
  have htray := moveBare_tray t .queued (s.tray t).grant none (s.setRecord t (s.tray t).tried) t
  rw [if_pos rfl, hself, enter_retried hl hi] at htray
  rw [startFailed_again hn]
  generalize moveBare t .queued (s.tray t).grant none (s.setRecord t (s.tray t).tried) = w at hleft htray ⊢
  exact ⟨(hleft.of_setRecord.entry ..).alarm _, htray⟩

/-- A failed start with no tries left leaves the tray FAULTED (R70). -/
theorem startFailed_faults (hi : (s.tray t).state = .inrush) (hl : (s.tray t).lawful) (hn : (s.tray t).triesLeft = 0) :
    LeftInrush t .faulted s (startFailed t s) ∧ (startFailed t s).tray t = (s.tray t).failed := by
  have hleft := moveBare_leftInrush hi (show TrayState.faulted ≠ .parked by decide) 0 (some .start)
  have htray := moveBare_tray t .faulted 0 (some .start) s t
  rw [if_pos rfl, enter_failed hl hi] at htray
  rw [startFailed_last hn]
  generalize moveBare t .faulted 0 (some .start) s = w at hleft htray ⊢
  exact ⟨((hleft.entry ..).due).alarm _, htray⟩

theorem windowEnd_of_slot {w : Slot} (hw : s.seq.slots[j] = some w) : windowEnd j s =
    if w.report = .good then startSucceeded w.tray s else startFailed w.tray s := by
  simp only [windowEnd, hw, beq_iff_eq]

theorem exec_windowExpiry (h : s.running) (j : SlotId) : exec (.windowExpiry j) s = .next (windowExpired j s) :=
  congrArg Host.Outcome.next (coreEvent_running h _)

/-- A window's expiry in a quiet state, by what its end does to its tray: nothing else is left to do. -/
theorem windowExpiry_ends {w : Slot} {st : TrayState} (h : s.running) (hq : s.quiet) (hw : s.seq.slots[j] = some w)
    (he : LeftInrush w.tray st s (windowEnd j s)) :
    exec (.windowExpiry j) s = .next ((windowEnd j s).setAgenda .none) := by
  obtain ⟨_, hwaits, hadmits, hwarm⟩ := hq
  have hrun : windowExpired j s = finish (windowEnd j s) := if_pos (by rw [hw]; rfl)
  rw [exec_windowExpiry h, hrun, finish_idle (he.waits hwaits) (he.admits hadmits) (he.warm.trans hwarm)]

/-- Settles O41: the three ends of a window, by its report and the tries left. -/
theorem windowExpiryJudgesTheStart : Obligations.WindowExpiryJudgesTheStart := by
  intro s j h
  refine ⟨fun hnone => ?_, fun w hw hi hl hq => ?_⟩
  · rw [exec_windowExpiry h, windowExpired, hnone]
    rfl
  · have hend := windowEnd_of_slot hw
    by_cases hgood : w.report = .good
    · obtain ⟨hleft, htray⟩ := startSucceeded_passes hi hl (hq.1 w.tray)
      rw [← hend.trans (if_pos hgood)] at hleft htray
      exact ⟨_, windowExpiry_ends h hq hw hleft, hleft.freed j w hw rfl, hleft.others,
        fun _ => ⟨hleft.output, hleft.queue, htray⟩, fun hbad => absurd hgood hbad, fun hbad => absurd hgood hbad⟩
    · have hend := hend.trans (if_neg hgood)
      by_cases htries : 0 < (s.tray w.tray).triesLeft
      · obtain ⟨hleft, htray⟩ := startFailed_retries hi hl htries
        rw [← hend] at hleft htray
        exact ⟨_, windowExpiry_ends h hq hw hleft, hleft.freed j w hw rfl, hleft.others,
          fun hg => absurd hg hgood, fun _ _ => ⟨hleft.output, hleft.queue, htray⟩, fun _ hz => absurd hz htries.ne'⟩
      · have hzero : (s.tray w.tray).triesLeft = 0 := by omega
        obtain ⟨hleft, htray⟩ := startFailed_faults hi hl hzero
        rw [← hend] at hleft htray
        exact ⟨_, windowExpiry_ends h hq hw hleft, hleft.freed j w hw rfl, hleft.others,
          fun hg => absurd hg hgood, fun _ hp => absurd hp htries, fun _ _ => ⟨hleft.output, hleft.queue, htray⟩⟩

end Sys2Proof.Machine
end

section
/-! SUPPORT. The edges of PFAIL_N, the qualification timer and the stage tick, where they change the Holdup Controller's own record
and move no tray; the end of an event outside NORMAL; and what moves leave of the flags and the ring (R78, R80 to R86, R145). -/

namespace Sys2Proof.Machine

variable {s u : State}

/-! ### The end of an event outside NORMAL -/

theorem admissionIfAllowed_outside (hn : s.isNormal = false) : admissionIfAllowed s = s := by
  simp [admissionIfAllowed, hn]

theorem regainTest_unqualified (hq : s.hup.qualified = false) : regainTest s = s := by simp [regainTest, hq]

theorem startAllowed_outside (hn : s.isNormal = false) : s.startAllowed = false := by simp [State.startAllowed, hn]

theorem endClaim_outside (hn : s.isNormal = false) (hq : s.hup.qualified = false) : ∃ a, endClaim s = s.setAgenda a := by
  have ha (a : Agenda) : admissionIfAllowed (s.setAgenda a) = s.setAgenda a := admissionIfAllowed_outside hn
  have hr (a : Agenda) : regainTest (s.setAgenda a) = s.setAgenda a := regainTest_unqualified hq
  unfold endClaim
  simp only [ha, ite_self, hr, setAgenda_setAgenda]
  split
  · exact ⟨_, rfl⟩
  · exact ⟨_, rfl⟩

theorem finishRounds_outside (n : Nat) (hn : s.isNormal = false) (hq : s.hup.qualified = false) :
    ∃ a, finishRounds n s = s.setAgenda a := by
  induction n generalizing s with
  | zero => exact ⟨s.agenda, rfl⟩
  | succ n ih =>
    obtain ⟨a, ha⟩ := endClaim_outside hn hq
    have ho := offerStart_disallowed (s := s.setAgenda a) (startAllowed_outside hn)
    obtain ⟨b, hb⟩ := ih (s := s.setAgenda { a with opportunity := false }) hn hq
    unfold finishRounds
    simp only [ha, ho, setAgenda_setAgenda, setAgenda_agenda, hb]
    split
    · split
      · exact ⟨_, rfl⟩
      · exact ⟨_, rfl⟩
    · exact ⟨a, rfl⟩

/-- Outside NORMAL no pass and no start is taken at the end of an event, and with qualified clear no regain is tested. -/
theorem finish_outside (hn : s.isNormal = false) (hq : s.hup.qualified = false) : finish s = s.setAgenda .none := by
  obtain ⟨a, ha⟩ := finishRounds_outside 33 hn hq
  rw [finish, ha, setAgenda_setAgenda]

/-! ### The events of the Holdup Controller, at a running core -/

/-- The state as the core finds it once the level of PFAIL_N has changed. -/
def State.withPfail (b : Bool) (s : State) : State := { s with sup := { s.sup with pfailAsserted := b } }

theorem exec_pfailAsserted (h : s.running) (hp : s.sup.pfailAsserted = false) :
    exec .pfailAsserted s = .next (acLost (s.withPfail true)) := by
  have he : pfailRise s = coreEvent acLost (s.withPfail true) := if_neg (by rw [hp]; exact Bool.false_ne_true)
  exact congrArg Host.Outcome.next (he.trans (coreEvent_running (s := s.withPfail true) h acLost))

theorem exec_pfailDeasserted (h : s.running) (hp : s.sup.pfailAsserted = true) :
    exec .pfailDeasserted s = .next (acReturned (s.withPfail false)) := by
  have he : pfailFall s = coreEvent acReturned (s.withPfail false) := if_pos hp
  exact congrArg Host.Outcome.next (he.trans (coreEvent_running (s := s.withPfail false) h acReturned))

/-- An edge to the level that PFAIL_N already has is no event (log entry 11). -/
theorem exec_pfail_unchanged :
    (s.sup.pfailAsserted = true → exec .pfailAsserted s = .next s) ∧
    (s.sup.pfailAsserted = false → exec .pfailDeasserted s = .next s) :=
  ⟨fun hp => congrArg Host.Outcome.next (if_pos hp),
    fun hp => congrArg Host.Outcome.next (if_neg (by rw [hp]; exact Bool.false_ne_true))⟩

theorem exec_qualificationExpiry (h : s.running) : exec .qualificationExpiry s = .next (qualificationExpired s) :=
  congrArg Host.Outcome.next (coreEvent_running h _)

theorem exec_stageTick (h : s.running) : exec .stageTick s = .next (stageTicked s) :=
  congrArg Host.Outcome.next (coreEvent_running h _)

/-! ### Warm REGAIN, and back to HOLDUP (R81, R82) -/

/-- Usable capacity that is already what the holdup state chooses stays. -/
theorem setUsable_agreed (h : s.usableAgrees) : setUsable s = s := by
  have he : usableFor s.hup.state s.hup.cold s.acct.shelf s.acct.battery = s.acct.usable := h.symm
  unfold setUsable
  rw [he]

/-- Settles O45: warm REGAIN chooses the battery's capacity, which HOLDUP had chosen already. -/
theorem acReturnInHoldupEntersWarmRegain : Obligations.AcReturnInHoldupEntersWarmRegain := by
  intro s h hp hs hu
  have he : acReturned (s.withPfail false) = finish (enterWarmRegain (s.withPfail false)) := by
    unfold acReturned
    rw [show (s.withPfail false).hup.state = .holdup from hs]
  have hw : setUsable ((s.withPfail false).setHup { s.hup with
      state := .regain, cold := false, qualified := false, qualTimer := some s.hup.qualification }) =
      (s.withPfail false).setHup { s.hup with
        state := .regain, cold := false, qualified := false, qualTimer := some s.hup.qualification } :=
    setUsable_agreed hu
  rw [exec_pfailDeasserted h hp, he, finish_none (s := enterWarmRegain (s.withPfail false)) h.2]
  exact congrArg (fun v => Host.Outcome.next (journalise .regain none (some (timerValue s.hup.timer)) (some .warm) v)) hw

/-! ### The stage tick (R78, R80) -/

/-- The rack as a stage tick leaves it before any stage ends. -/
def State.ticked (s : State) : State :=
  s.setHup { s.hup with timer := max (s.hup.timer - 1) (-32768), stageTick := some Config.stageTickMs }

theorem stageTicked_armed (h : s.hup.stageTick.isSome = true) : stageTicked s = finish (advanceStages 3 s.ticked) :=
  if_neg (by simp [Option.isSome_iff_ne_none.mp h])

/-- A stage ends only when the stage timer has reached its boundary (R78). -/
theorem advanceStages_unreached (n : Nat) (h1 : s.hup.stage = some .one → (s.hup.bound1 : Int) < s.hup.timer)
    (h2 : s.hup.stage = some .two → (s.hup.bound2 : Int) < s.hup.timer) (h3 : s.hup.stage = some .three → 0 < s.hup.timer) :
    advanceStages n s = s := by
  cases n with
  | zero => rfl
  | succ n =>
    unfold advanceStages
    split
    · exact if_neg (not_le.mpr (h1 ‹_›))
    · exact if_neg (not_le.mpr (h2 ‹_›))
    · exact if_neg (not_le.mpr (h3 ‹_›))
    · rfl

/-- Settles O47: between two boundaries a tick only counts down. -/
theorem stageTickCountsDown : Obligations.StageTickCountsDown := by
  intro s h
  refine ⟨fun hidle => ?_, fun harmed h1 h2 h3 => ?_⟩
  · rw [exec_stageTick h, stageTicked, hidle]
    rfl
  · rw [exec_stageTick h, stageTicked_armed harmed, advanceStages_unreached (s := s.ticked) 3 h1 h2 h3,
      finish_none (s := s.ticked) h.2]
    rfl

/-! ### Flags and entries -/

theorem leaveCollection_ports (t : TrayId) (s : State) :
    (leaveCollection t s).portA = s.portA ∧ (leaveCollection t s).portB = s.portB := by
  unfold leaveCollection dequeue freeSlot
  split <;> first | exact ⟨rfl, rfl⟩ | (dsimp only; split <;> exact ⟨rfl, rfl⟩)

theorem joinCollection_ports (t : TrayId) (st : TrayState) (s : State) :
    (joinCollection t st s).portA = s.portA ∧ (joinCollection t st s).portB = s.portB := by
  unfold joinCollection
  split <;> simp

/-- No move clears an alert flag (R145). -/
theorem Evolves.flags (h : Evolves s u) (p : Port) {m : Half} (hm : (s.port p).flags &&& m = m) :
    (u.port p).flags &&& m = m := by
  have port_of {v w : State} (hA : w.portA = v.portA) (hB : w.portB = v.portB) : w.port p = v.port p := by
    cases p
    · exact hA
    · exact hB
  have entry (k : Kind) (a : Option Subject) (x : Option Nat) (r : Option Reason) (v : State)
      (hv : (v.port p).flags &&& m = m) : ((journalise k a x r v).port p).flags &&& m = m := by
    rw [journalise_port_flags]
    exact hv
  have move (t : TrayId) (st : TrayState) (g : Nat) (c : Option FaultCause) (v : State) (hv : (v.port p).flags &&& m = m) :
      ((moveBare t st g c v).port p).flags &&& m = m := by
    refine moveBare_keeps (P := fun w => (w.port p).flags &&& m = m) t st g c (fun w hw => entry _ _ _ _ w hw)
      (fun w hw r => ?_) hv
    have hj := joinCollection_ports t st ((leaveCollection t w).putTray t r)
    have hl := leaveCollection_ports t w
    rw [port_of (hj.1.trans hl.1) (hj.2.trans hl.2)]
    exact hw
  induction h with
  | trans _ _ h h' => exact h' (h hm)
  | entry k a x r v => exact entry k a x r v hm
  | alarm c v =>
    rw [raise_port]
    exact setFlag_keeps c _ m hm
  | trapped x v =>
    rw [trapFailure_eq]
    exact hm
  | moved t st g c v => exact move t st g c v hm
  | started t j code g v => exact move t .inrush g none v hm
  | _ => exact hm

theorem raise_flags (c : Alert) (s : State) (p : Port) : ((raise c s).port p).flags &&& c.mask = c.mask := by
  rw [raise_port]
  show ((s.port p).flags ||| c.mask) &&& c.mask = c.mask
  refine BitVec.eq_of_getElem_eq fun i hi => ?_
  rw [BitVec.getElem_and, BitVec.getElem_or]
  cases c.mask[i] <;> simp

/-- A new entry is the last of the ring (R149). -/
theorem journalise_getLast? (k : Kind) (a : Option Subject) (v : Option Nat) (r : Option Reason) (s : State) :
    (journalise k a v r s).journal.entries.getLast? = some
      { seq := s.journal.next, census := s.sense.census, kind := k, subject := a, value := v.map (min · 65535)
        reason := r.map Reason.code } := by
  simp [journalise, Journal.push]

end Sys2Proof.Machine
end

section
/-! SUPPORT. What entering NORMAL and entering DARK leave at the end of their event, and the events that enter them with no tray
moved: the qualification timer's expiry, and the edges of PFAIL_N outside NORMAL (R82, R83, R85, R86, R89). -/

namespace Sys2Proof.Machine

variable {s u : State}

/-! ### The qualification timer's expiry (R83, R85, R86) -/

theorem Steady.usable (h : Steady s u) : u.acct.usable = s.acct.usable := by
  have hb := h.basis
  simp only [Prod.mk.injEq] at hb
  exact hb.2.2.1

/-- NORMAL has been entered: its holdup record, the shelf's capacity, the automatic run due from cold REGAIN, and its alert. -/
structure EnteredNormal (s u : State) : Prop where
  hup : u.hup = s.normalBegun.hup
  usable : u.acct.usable = s.acct.shelf
  due : s.hup.cold = true → u.seq.autoDue = true
  flag (p : Port) : (u.port p).flags &&& 2 = 2

/-- What the passes and starts of an event that enters NORMAL leave as it is. -/
theorem EnteredNormal.steady {v w : State} (h : EnteredNormal s v) (hs : Steady v w) (he : Evolves v w) : EnteredNormal s w where
  hup := hs.hup.trans h.hup
  usable := hs.usable.trans h.usable
  due hc := hs.due.trans (h.due hc)
  flag p := he.flags p (h.flag p)

theorem enterNormal_entered (s : State) : EnteredNormal s (enterNormal s) := by
  obtain ⟨k, r, he⟩ := enterNormal_eq s
  have hadm := admissionIfAllowed_steady s.normalBegun
  have hmask : Alert.normalBack.mask = 2 := by decide
  rw [he]
  refine ⟨?_, ?_, fun hc => ?_, fun p => hmask ▸ raise_flags ..⟩
  · show (if _ then _ else _ : State).hup = _
    split <;> exact hadm.hup
  · show (if _ then _ else _ : State).acct.usable = _
    split <;> exact hadm.usable
  · rw [if_pos hc]
    rfl

theorem finish_enterNormal (s : State) : EnteredNormal s (finish (enterNormal s)) := by
  have h := enterNormal_entered s
  have hn : (enterNormal s).isNormal = true := by
    unfold State.isNormal
    rw [h.hup]
    rfl
  exact h.steady (finish_steady_normal hn) (finish_evolves _)

/-- The qualification timer has run out. -/
def State.qualRunOut (s : State) : State := s.setHup { s.hup with qualTimer := none }

theorem qualificationExpired_enters (h : s.hup.qualTimer.isSome = true)
    (hc : s.hup.cold = true ∨ s.acct.committed ≤ s.acct.shelf) :
    qualificationExpired s = finish (enterNormal s.qualRunOut) := by
  refine (if_neg (by simp [Option.isSome_iff_ne_none.mp h])).trans (if_pos ?_)
  rw [Bool.or_eq_true, decide_eq_true_eq]
  exact hc

theorem qualificationExpired_short (h : s.hup.qualTimer.isSome = true) (hc : s.hup.cold = false)
    (hshort : s.acct.shelf < s.acct.committed) : qualificationExpired s =
      journalise .qualified none (some s.acct.shelf) (some .short)
        { s with hup := { s.hup with qualTimer := none, qualified := true } } := by
  refine (if_neg (by simp [Option.isSome_iff_ne_none.mp h])).trans (if_neg ?_)
  rw [Bool.or_eq_true, decide_eq_true_eq, not_or]
  exact ⟨fun e => Bool.false_ne_true (hc.symm.trans e), Nat.not_le.mpr hshort⟩

/-- Settles O46: the record with which NORMAL begins is the one that the event ends with. -/
theorem qualificationExpiryEndsTheRegain : Obligations.QualificationExpiryEndsTheRegain := by
  intro s h
  obtain ⟨hhup, husable, hdue, hflag⟩ := finish_enterNormal s.qualRunOut
  refine ⟨fun hidle => ?_, fun harmed hcold => ?_, fun harmed hwarm hfits => ?_, fun harmed hwarm hshort => ?_⟩
  · rw [exec_qualificationExpiry h, qualificationExpired, hidle]
    rfl
  · rw [exec_qualificationExpiry h, qualificationExpired_enters harmed (Or.inl hcold)]
    refine ⟨_, rfl, ?_, ?_, ?_, ?_, hdue hcold, husable, hflag⟩ <;> rw [hhup]
    · rfl
    · rfl
    · rfl
    · exact if_pos hcold
  · rw [exec_qualificationExpiry h, qualificationExpired_enters harmed (Or.inr hfits)]
    refine ⟨_, rfl, ?_, ?_, ?_, ?_, ?_, ?_, ?_, husable, hflag⟩ <;> rw [hhup]
    · rfl
    · rfl
    · rfl
    · rfl
    · rfl
    · rfl
    · exact if_neg (by rw [show s.qualRunOut.hup.cold = false from hwarm]; exact Bool.false_ne_true)
  · rw [exec_qualificationExpiry h, qualificationExpired_short harmed hwarm hshort]

/-! ### DARK (R77, R86, R89) -/

/-- A DARK entry, by whether it comes from cold REGAIN and by how many trays it makes IDLE. -/
theorem enterDark_darkEntered (reason : Reason) (s : State) : enterDark reason s =
    darkEntered reason (s.hup.state == .regain && s.hup.cold) (allTrays.filter fun t => (s.tray t).state.darkens).length
      (allTrays.foldl darkenTray s) := by
  unfold enterDark
  dsimp only
  generalize allTrays.foldl darkenTray s = v
  rfl

/-- With AC absent a DARK entry ends its event in DARK. -/
theorem finish_darkEntered (reason : Reason) (fromCold : Bool) (moved : Nat) (hp : s.sup.pfailAsserted = true) :
    finish (darkEntered reason fromCold moved s) =
      (if fromCold then journalise .dark none (some moved) (some reason) s.darkBegun
        else raise .dark (journalise .dark none (some moved) (some reason) s.darkBegun)).setAgenda .none := by
  have he : darkEntered reason fromCold moved s =
      if fromCold then journalise .dark none (some moved) (some reason) s.darkBegun
        else raise .dark (journalise .dark none (some moved) (some reason) s.darkBegun) := by
    refine if_pos ?_
    cases fromCold <;> exact hp
  rw [he]
  cases fromCold
  · exact finish_outside (s := raise .dark (journalise .dark none (some moved) (some reason) s.darkBegun)) rfl rfl
  · exact finish_outside (s := journalise .dark none (some moved) (some reason) s.darkBegun) rfl rfl

/-- DARK begins on the tables as they stand. -/
theorem darkBegun_rebased (s : State) : Rebased s s.darkBegun := ⟨rfl, rfl, rfl, rfl, rfl⟩

theorem darkenTray_eq (s : State) (t : TrayId) :
    darkenTray s t = if (s.tray t).state.darkens = true then moveBare t .idle 0 none s else s := by
  unfold darkenTray
  cases (s.tray t).state <;> rfl

/-- Where no tray is QUEUED, INRUSH, RUN or PARKED, DARK entry moves none. -/
theorem darkenAll_dark (h : ∀ t, (s.tray t).state.darkens = false) (l : List TrayId) : l.foldl darkenTray s = s :=
  foldl_fixed (fun t => by rw [darkenTray_eq, h t, if_neg Bool.false_ne_true]) l

/-! ### The edges of PFAIL_N outside NORMAL (R82, R86) -/

theorem acLost_idle (h : s.hup.state = .holdup ∨ s.hup.state = .dark) : acLost s = s := by
  unfold acLost
  rcases h with h | h <;> rw [h]

theorem acLost_warm (h : s.hup.state = .regain) (hc : s.hup.cold = false) : acLost s = finish (resumeHoldup s) := by
  unfold acLost
  rw [h]
  exact if_neg (by rw [hc]; exact Bool.false_ne_true)

theorem acLost_cold (h : s.hup.state = .regain) (hc : s.hup.cold = true) : acLost s = finish (enterDark .acLost s) := by
  unfold acLost
  rw [h]
  exact if_pos hc

theorem acReturned_idle (h : s.hup.state = .normal ∨ s.hup.state = .regain) : acReturned s = s := by
  unfold acReturned
  rcases h with h | h <;> rw [h]

theorem acReturned_dark (h : s.hup.state = .dark) : acReturned s = finish (enterColdRegain s) := by
  unfold acReturned
  rw [h]

/-- AC lost in cold REGAIN: DARK again with no alert, since no tray can be moved (R86). -/
theorem acLost_coldDark (h : s.hup.state = .regain) (hc : s.hup.cold = true) (hp : s.sup.pfailAsserted = true)
    (ht : ∀ t, (s.tray t).state.darkens = false) : ∃ moved,
      acLost s = (journalise .dark none (some moved) (some .acLost) s.darkBegun).setAgenda .none := by
  have hcold : (s.hup.state == .regain && s.hup.cold) = true := by rw [h, hc]; rfl
  rw [acLost_cold h hc, enterDark_darkEntered, darkenAll_dark ht, hcold]
  exact ⟨_, finish_darkEntered .acLost true _ hp⟩

/-- Settles O44: each edge of PFAIL_N outside NORMAL, and each edge that is no event. -/
theorem otherPfailEdges : Obligations.OtherPfailEdges := by
  refine ⟨fun s h hp => ⟨fun hs hc => ?_, fun hs hc ht => ?_, fun hs => ?_⟩,
    fun s h => ⟨fun hp hs => ?_, fun hp hs => ?_, exec_pfail_unchanged.2, exec_pfail_unchanged.1⟩⟩
  · rw [exec_pfailAsserted h hp, acLost_warm (s := s.withPfail true) hs hc,
      finish_none (s := resumeHoldup (s.withPfail true)) h.2]
    rfl
  · have hrest (t : TrayId) : (s.tray t).state.darkens = false := by
      rcases ht t with e | e | e <;> rw [e] <;> rfl
    obtain ⟨moved, he⟩ := acLost_coldDark (s := s.withPfail true) hs hc rfl hrest
    rw [exec_pfailAsserted h hp, he]
    exact ⟨_, _, rfl, rfl, rfl, rfl, (darkBegun_rebased (s.withPfail true)).trays,
      fun p => journalise_port_flags .dark none (some moved) (some .acLost) (s.withPfail true).darkBegun p,
      journalise_getLast? .., rfl, rfl⟩
  · rw [exec_pfailAsserted h hp, acLost_idle (s := s.withPfail true) hs]
    rfl
  · rw [exec_pfailDeasserted h hp, acReturned_dark (s := s.withPfail false) hs,
      finish_none (s := enterColdRegain (s.withPfail false)) h.2]
    rfl
  · rw [exec_pfailDeasserted h hp, acReturned_idle (s := s.withPfail false) hs]
    rfl

end Sys2Proof.Machine
end

section
/-! SUPPORT. Sweeps over the trays: a DARK entry, the two parkings of a HOLDUP entry and the end of a stage each take every tray
whose record they choose to one state, and leave every other record and enable latch alone (R76, R77, R79, R89). -/

namespace Sys2Proof.Machine

variable {s u v : State} {st : TrayState} {g : Tray → Nat} {n k : TrayId}

/-! ### Trays taken to one state -/

/-- The trays chosen have gone to a state, with the grant that their records give; every other record and latch stays. -/
structure Swept (chosen : TrayId → Bool) (st : TrayState) (g : Tray → Nat) (s u : State) : Prop where
  tray (k : TrayId) : u.tray k = if chosen k = true then (s.tray k).enter st (g (s.tray k)) none else s.tray k
  enable (k : TrayId) : u.hold.enable[k] = if chosen k = true then st.enabled else s.hold.enable[k]

theorem Swept.beside {chosen : TrayId → Bool} (h : Swept chosen st g s u) (ht : v.trays = u.trays) (hh : v.hold = u.hold) :
    Swept chosen st g s v :=
  ⟨fun k => (tray_congr ht k).trans (h.tray k), fun k => by rw [hh]; exact h.enable k⟩

theorem moveBare_enable_self (n : TrayId) (st : TrayState) (g : Nat) (c : Option FaultCause) (s : State) :
    (moveBare n st g c s).hold.enable[n] = st.enabled := by
  rw [moveBare_eq, joinCollection_hold]
  exact putTray_enable_self ..

theorem moveBare_enable_ne (hk : n ≠ k) (st : TrayState) (g : Nat) (c : Option FaultCause) (s : State) :
    (moveBare n st g c s).hold.enable[k] = s.hold.enable[k] := by
  rw [moveBare_eq, joinCollection_hold]
  exact leaveAndPut_enable_ne hk st g c s

/-- A step that moves its own tray, when it chooses the record, and does nothing otherwise. -/
theorem Swept.step {choose : Tray → Bool} (n : TrayId)
    (hmove : choose (s.tray n) = true → u.trays = (moveBare n st (g (s.tray n)) none s).trays ∧
      u.hold = (moveBare n st (g (s.tray n)) none s).hold)
    (hstay : ¬choose (s.tray n) = true → u = s) : Swept (fun k => k == n && choose (s.tray k)) st g s u := by
  by_cases hc : choose (s.tray n) = true
  · obtain ⟨ht, hh⟩ := hmove hc
    refine Swept.beside ⟨fun k => ?_, fun k => ?_⟩ ht hh
    · rw [moveBare_tray]
      by_cases hk : k = n
      · subst hk
        simp [hc]
      · simp [hk]
    · by_cases hk : k = n
      · subst hk
        rw [moveBare_enable_self]
        simp [hc]
      · rw [moveBare_enable_ne (Ne.symm hk)]
        simp [hk]
  · rw [hstay hc]
    refine ⟨fun k => (if_neg ?_).symm, fun k => (if_neg ?_).symm⟩ <;>
    · rw [Bool.and_eq_true, beq_iff_eq]
      rintro ⟨rfl, e⟩
      exact hc e

/-- The steps over a list of trays without repeats move the trays of the list that they choose. -/
theorem Swept.foldl {I : State → Prop} {choose : Tray → Bool} {f : State → TrayId → State}
    (keep : ∀ s n, I s → I (f s n))
    (step : ∀ s n, I s → Swept (fun k => k == n && choose (s.tray k)) st g s (f s n)) {l : List TrayId} (hl : l.Nodup)
    (hs : I s) : Swept (fun k => l.contains k && choose (s.tray k)) st g s (l.foldl f s) := by
  induction l generalizing s with
  | nil => exact ⟨fun k => by simp, fun k => by simp⟩
  | cons n l ih =>
    obtain ⟨hn, hl⟩ := List.nodup_cons.mp hl
    obtain ⟨ht, he⟩ := step s n hs
    obtain ⟨ht', he'⟩ := ih hl (keep s n hs)
    refine ⟨fun k => ?_, fun k => ?_⟩
    · rw [List.foldl_cons, ht', ht]
      by_cases hk : k = n
      · subst hk
        simp [hn]
      · simp [hk]
    · rw [List.foldl_cons, he', he, ht]
      by_cases hk : k = n
      · subst hk
        simp [hn]
      · simp [hk]

/-- The steps over all trays move the trays that they choose. -/
theorem Swept.all {I : State → Prop} {choose : Tray → Bool} {f : State → TrayId → State} (keep : ∀ s n, I s → I (f s n))
    (step : ∀ s n, I s → Swept (fun k => k == n && choose (s.tray k)) st g s (f s n)) (hs : I s) :
    Swept (fun k => choose (s.tray k)) st g s (allTrays.foldl f s) := by
  have h := Swept.foldl keep step nodup_allTrays hs
  simpa only [List.contains_iff_mem.mpr (mem_allTrays _), Bool.true_and] using h

/-! ### Reads while every code passes -/

/-- A part that passes its check, or is locked, goes on doing so. -/
theorem Evolves.codesPass (h : Evolves s u) (hs : s.codesPass) : u.codesPass := fun n => by
  have hn := hs n
  unfold Tray.failsCheck at hn ⊢
  rw [h.code n]
  cases hl : (s.tray n).locked with
  | true => rw [h.locks hl, Bool.not_true, Bool.and_false]
  | false =>
    rw [hl, Bool.not_false, Bool.and_true] at hn
    rw [hn, Bool.false_and]

theorem move_parked_passes (h : s.codesPass) (n : TrayId) (g : Nat) :
    move n .parked g none s = moveBare n .parked g none s :=
  move_passes ((Evolves.moved n .parked g none s (by decide) (by simp) (by simp)).codesPass h)

/-! ### DARK entry (R77, R89) -/

theorem darkenAll_swept (s : State) :
    Swept (fun k => (s.tray k).state.darkens) .idle (fun _ => 0) s (allTrays.foldl darkenTray s) := by
  refine Swept.all (I := fun _ => True) (choose := fun r => r.state.darkens) (fun _ _ => id) (fun s n _ => ?_) trivial
  rw [darkenTray_eq]
  refine Swept.step (choose := fun r => r.state.darkens) n (fun hd => ?_) fun hd => if_neg hd
  rw [if_pos hd]
  exact ⟨rfl, rfl⟩

/-- DARK entry leaves the collections empty (R89). -/
theorem darkenAll_collections (h : s.collectionsAgree) : (allTrays.foldl darkenTray s).queue = [] ∧
    (allTrays.foldl darkenTray s).park = [] ∧ ∀ j : SlotId, (allTrays.foldl darkenTray s).seq.slots[j] = none := by
  have hdark : (allTrays.foldl darkenTray s).allDark :=
    allDark_of_darkens fun n => darkenAll_state _ s n (Or.inl (mem_allTrays n))
  refine collections_empty ((Evolves.foldl darkenTray_evolves allTrays s).collectionsAgree h) fun n => ?_
  obtain ⟨⟨hq, hi⟩, _, hp⟩ := hdark n
  exact ⟨hq, hp, hi⟩

/-- The rack in DARK at the end of the event, once its trays have been darkened. -/
def State.darkEnded (moved : Nat) (s : State) : State :=
  (raise .dark (journalise .dark none (some moved) (some .noBattery) s.darkBegun)).setAgenda .none

theorem darkEnded_trays (moved : Nat) (s : State) : (s.darkEnded moved).trays = s.trays := by
  simp [State.darkEnded, State.darkBegun]

theorem darkEnded_hold (moved : Nat) (s : State) : (s.darkEnded moved).hold = s.hold := by
  simp [State.darkEnded, State.darkBegun]

theorem darkEnded_collections (moved : Nat) (s : State) : (s.darkEnded moved).queue = s.queue ∧
    (s.darkEnded moved).park = s.park ∧ (s.darkEnded moved).seq.slots = s.seq.slots := by
  simp [State.darkEnded, State.darkBegun, State.setDue, State.setPace]

theorem darkEnded_flag (moved : Nat) (s : State) (p : Port) : ((s.darkEnded moved).port p).flags &&& 4 = 4 := by
  have hmask : Alert.dark.mask = 4 := by decide
  exact hmask ▸ raise_flags .dark (journalise .dark none (some moved) (some .noBattery) s.darkBegun) p

/-- AC lost in NORMAL with no battery: DARK at the end of the event, with its entry and its alert (R77, R89). -/
theorem acLost_noBattery (hn : s.hup.state = .normal) (hm : s.isSettled = true) (hb : s.acct.battery = 0)
    (hp : s.sup.pfailAsserted = true) : acLost s =
      (allTrays.foldl darkenTray s).darkEnded (allTrays.filter fun t => (s.tray t).state.darkens).length := by
  have hfold := Evolves.foldl darkenTray_evolves allTrays s
  have he : acLost s = finish (enterDark .noBattery s) := by
    unfold acLost
    rw [hn]
    exact if_pos (by rw [hm, hb]; rfl)
  rw [he, enterDark_darkEntered, finish_darkEntered _ _ _ (by rw [hfold.sameUnits.sup]; exact hp), hn]
  rfl

/-- A tray that is taken to rest keeps its configuration, its tries and its lock alone (R2, R4, R6). -/
theorem enter_atRest (hst : st.rests = true) (r : Tray) (g : Nat) : r.enter st g none = { r with
    state := st, grant := g, commitment := 0, revision := r.revision + 1, faultCause := none
    adopted := false, deferred := false, overCap := false } := by
  have hrun : (st == .run) = false := by cases st <;> first | rfl | exact absurd hst Bool.false_ne_true
  have hmarks : st.keepsMarks = false := by cases st <;> first | rfl | exact absurd hst Bool.false_ne_true
  simp only [Tray.enter, commitFor_rests hst, hrun, hmarks, Bool.and_false]

/-- Settles O42: DARK entry sweeps the started and waiting trays, and the event then ends in DARK. -/
theorem acLossWithoutBatteryEntersDark : Obligations.AcLossWithoutBatteryEntersDark := by
  intro s h hp hn hm hb hstage hcol
  have hcut (t : TrayId) : (!((s.tray t).state = .idle || (s.tray t).state = .isolated || (s.tray t).state = .faulted) : Bool) =
      (s.tray t).state.darkens := by cases (s.tray t).state <;> rfl
  have hlost := acLost_noBattery (s := s.withPfail true) hn hm hb rfl
  have hswept := darkenAll_swept (s.withPfail true)
  obtain ⟨hqueue, hpark, hslots⟩ := darkenAll_collections (s := s.withPfail true) hcol
  have hhup : (allTrays.foldl darkenTray (s.withPfail true)).hup = s.hup :=
    (Sinks.foldl darkenTray_sinks allTrays (s.withPfail true)).hup
  generalize allTrays.foldl darkenTray (s.withPfail true) = v at hlost hswept hqueue hpark hslots hhup
  change acLost (s.withPfail true) = v.darkEnded (allTrays.filter fun t => (s.tray t).state.darkens).length at hlost
  have hfew : (allTrays.filter fun t => (s.tray t).state.darkens).length ≤ 32 := inStates_length_le s TrayState.darkens
  dsimp only
  simp only [hcut]
  rw [exec_pfailAsserted h hp, hlost]
  generalize (allTrays.filter fun t => (s.tray t).state.darkens).length = moved at hfew ⊢
  obtain ⟨htray, henable⟩ := hswept.beside (darkEnded_trays moved v) (darkEnded_hold moved v)
  obtain ⟨hq, hpk, hsl⟩ := darkEnded_collections moved v
  refine ⟨v.darkEnded moved, _, rfl, rfl, rfl, rfl, rfl, rfl, rfl, ?_, ?_, rfl, hq.trans hqueue, hpk.trans hpark,
    fun j => ?_, rfl, darkEnded_flag moved v, fun t => ⟨fun hc => ?_, fun hc => ⟨?_, ?_⟩⟩,
    journalise_getLast? .., rfl, rfl, ?_⟩
  · show v.hup.episodes = s.hup.episodes
    rw [hhup]
  · show (if v.hup.stage.isSome then (v.hup.total - v.hup.timer).toNat else v.hup.lastElapsed) = s.hup.lastElapsed
    rw [hhup, hstage]
    rfl
  · rw [hsl]
    exact hslots j
  · exact (htray t).trans (if_neg (Bool.eq_false_iff.mp hc))
  · exact (henable t).trans (if_pos hc)
  · exact ((htray t).trans (if_pos hc)).trans (enter_atRest rfl _ 0)
  · exact congrArg some (Nat.min_eq_left (by omega))

end Sys2Proof.Machine
end

section
/-! SUPPORT. The stages of an episode with qualified clear: what a tray at rest keeps, what the end of a stage sheds, and the
boundary of stage 1 (R78 to R80). -/

namespace Sys2Proof.Machine

variable {s t u : State} {n : TrayId}

/-! ### What leaves trays at rest alone -/

/-- While every code passes a tray at rest keeps its record and its enable latch, and an idle pace timer stays idle. -/
structure Settles (s u : State) : Prop where
  evolves : Evolves s u
  pace : s.codesPass → s.seq.paceTimer = none → u.seq.paceTimer = none
  rest : s.codesPass → ∀ n, (s.tray n).state.rests = true → u.tray n = s.tray n ∧ u.hold.enable[n] = s.hold.enable[n]

theorem Settles.refl (s : State) : Settles s s := ⟨.refl s, fun _ h => h, fun _ _ _ => ⟨rfl, rfl⟩⟩

theorem Settles.trans (h : Settles s t) (h' : Settles t u) : Settles s u where
  evolves := h.evolves.trans h'.evolves
  pace hc hp := h'.pace (h.evolves.codesPass hc) (h.pace hc hp)
  rest hc n hn := by
    obtain ⟨ht, he⟩ := h.rest hc n hn
    obtain ⟨ht', he'⟩ := h'.rest (h.evolves.codesPass hc) n (ht ▸ hn)
    exact ⟨ht'.trans ht, he'.trans he⟩

theorem Settles.ite {c : Prop} [Decidable c] {a b : State} (ha : c → Settles s a) (hb : ¬c → Settles s b) :
    Settles s (if c then a else b) := by
  split
  · exact ha ‹_›
  · exact hb ‹_›

/-- What is shown under the assumption that every code passes. -/
theorem Settles.of_codes (h : Evolves s u) (hs : s.codesPass → Settles s u) : Settles s u :=
  ⟨h, fun hc => (hs hc).pace hc, fun hc => (hs hc).rest hc⟩

theorem Settles.beside (h : Evolves s u) (hp : u.seq.paceTimer = s.seq.paceTimer) (ht : u.trays = s.trays)
    (hh : u.hold = s.hold) : Settles s u :=
  ⟨h, fun _ e => hp.trans e, fun _ n _ => ⟨tray_congr ht n, by rw [hh]⟩⟩

theorem setAgenda_settles (a : Agenda) (s : State) : Settles s (s.setAgenda a) := .beside (.agenda ..) rfl rfl rfl
theorem journalise_settles (k : Kind) (a : Option Subject) (v : Option Nat) (r : Option Reason) (s : State) :
    Settles s (journalise k a v r s) := .beside (.entry ..) rfl rfl rfl
theorem raise_settles (c : Alert) (s : State) : Settles s (raise c s) := .beside (.alarm ..) rfl rfl rfl

theorem leaveCollection_pace (n : TrayId) (h : s.seq.paceTimer = none) : (leaveCollection n s).seq.paceTimer = none := by
  unfold leaveCollection dequeue freeSlot
  split <;> first | exact h | (dsimp only; split <;> first | rfl | exact h)

/-- A tray that is parked leaves an idle pace timer idle: only an append to the queue arms it (R65). -/
theorem moveBare_parked_pace (n : TrayId) (g : Nat) (h : s.seq.paceTimer = none) :
    (moveBare n .parked g none s).seq.paceTimer = none := by
  show (leaveAndPut n .parked g none s).seq.paceTimer = none
  unfold leaveAndPut
  dsimp only
  split
  · exact leaveCollection_pace (s := overCapCleared n s) n h
  · exact leaveCollection_pace n h

/-- A tray that is parked was not at rest before. -/
theorem move_parked_settles {g : Nat} (hn : (s.tray n).state.rests = false) : Settles s (move n .parked g none s) := by
  refine .of_codes (move_parked_evolves n g s) fun hc => ?_
  rw [move_parked_passes hc]
  refine ⟨.moved n .parked g none s (by decide) (by simp) (by simp), fun _ => moveBare_parked_pace n g, fun _ k hk => ?_⟩
  have hne : k ≠ n := by
    rintro rfl
    exact Bool.false_ne_true (hn.symm.trans hk)
  exact ⟨by rw [moveBare_tray, if_neg hne], moveBare_enable_ne hne.symm ..⟩

/-! ### The end of a stage (R79) -/

/-- The record is one that the end of a stage sheds: RUN, of a class below the stage's number, or locked (R21, R79). -/
def Tray.shedAt (stage : Nat) (r : Tray) : Bool := r.state == .run && decide (r.effClass < stage)

/-- One tray at the end of a stage, the count of the trays shed left out. -/
def stageShedOne (stage : Nat) (s : State) (n : TrayId) : State := (stageShed stage (s, 0) n).1

theorem stageShed_fst (stage m : Nat) (n : TrayId) (s : State) : (stageShed stage (s, m) n).1 = stageShedOne stage s n := by
  unfold stageShedOne stageShed
  dsimp only
  split
  · split
    · rfl
    · rfl
  · rfl

theorem stageSheds_fst (stage : Nat) (l : List TrayId) (s : State) (m : Nat) :
    (l.foldl (stageShed stage) (s, m)).1 = l.foldl (stageShedOne stage) s := by
  induction l generalizing s m with
  | nil => rfl
  | cons n l ih =>
    have h := stageShed_fst stage m n s
    rw [List.foldl_cons, List.foldl_cons, ← h]
    exact ih ..

/-- While every code passes the end of a stage parks the trays that it sheds, and reads the others without effect. -/
theorem stageShedOne_passes (hc : s.codesPass) (stage : Nat) (n : TrayId) : stageShedOne stage s n =
    if (s.tray n).shedAt stage = true then journalise .stageShed (some (.tray n)) (some (s.tray n).commitment)
      (some (.number stage)) (moveBare n .parked (s.tray n).grant none s) else s := by
  unfold stageShedOne stageShed Tray.shedAt
  dsimp only
  rw [checkRead_passes (hc n), move_parked_passes hc]
  by_cases hr : ((s.tray n).state == .run) = true
  · simp only [hr, Bool.true_and, if_true]
    split <;> rfl
  · simp only [hr, Bool.false_and, if_false, Bool.false_eq_true]

theorem stageSheds_swept (hc : s.codesPass) (stage : Nat) :
    Swept (fun k => (s.tray k).shedAt stage) .parked Tray.grant s (allTrays.foldl (stageShedOne stage) s) := by
  refine Swept.all (I := State.codesPass) (fun s n h => ?_) (fun s n h => ?_) hc
  · exact ((stageShed_evolves stage s 0 n).codesPass h)
  · rw [stageShedOne_passes h]
    refine Swept.step n (fun hd => ?_) fun hd => if_neg hd
    rw [if_pos hd]
    exact ⟨rfl, rfl⟩

theorem stageShedOne_settles (stage : Nat) (s : State) (n : TrayId) : Settles s (stageShedOne stage s n) := by
  refine .of_codes (stageShed_evolves stage s 0 n) fun hc => ?_
  have hmove := move_parked_settles (s := s) (n := n) (g := (s.tray n).grant)
  rw [move_parked_passes hc] at hmove
  rw [stageShedOne_passes hc]
  refine .ite (fun hd => (hmove ?_).trans (journalise_settles ..)) fun _ => .refl s
  rw [eq_of_beq ((Bool.and_eq_true _ _).mp hd).1]
  rfl

theorem Settles.foldl {f : State → TrayId → State} (h : ∀ s n, Settles s (f s n)) (l : List TrayId) (s : State) :
    Settles s (l.foldl f s) := by
  induction l generalizing s with
  | nil => exact .refl s
  | cons n l ih => exact (h s n).trans (ih _)

/-- With qualified clear the end of a stage is its shedding, its entry and its alert: no regain is tested (R79, R84). -/
theorem endStage_unqualified (stage : Nat) (hq : s.hup.qualified = false) : ∃ m : Nat, endStage stage s =
    if m = 0 then journalise .stageEnd none (some m) (some (.number stage)) (allTrays.foldl (stageShedOne stage) s)
    else raise .stageShed (journalise .stageEnd none (some m) (some (.number stage)) (allTrays.foldl (stageShedOne stage) s)) := by
  have hhup : (allTrays.foldl (stageShedOne stage) s).hup = s.hup := by
    rw [← stageSheds_fst stage allTrays s 0]
    exact (stageSheds_sinks stage allTrays s 0).hup
  have hfst := stageSheds_fst stage allTrays s 0
  unfold endStage
  generalize allTrays.foldl (stageShed stage) (s, 0) = a at hfst
  obtain ⟨v, m⟩ := a
  rw [← hfst] at hhup ⊢
  refine ⟨m, regainTest_unqualified ?_⟩
  have hv : v.hup.qualified = false := (congrArg Holdup.qualified hhup).trans hq
  split <;> exact hv

theorem endStage_sinks (stage : Nat) (hq : s.hup.qualified = false) : Sinks s (endStage stage s) := by
  have hfold : Sinks s (allTrays.foldl (stageShedOne stage) s) := by
    rw [← stageSheds_fst stage allTrays s 0]
    exact stageSheds_sinks stage allTrays s 0
  obtain ⟨m, he⟩ := endStage_unqualified stage hq
  rw [he]
  have hentry := hfold.trans (journalise_sinks .stageEnd none (some m) (some (.number stage)) _)
  exact .ite (fun _ => hentry) fun _ => hentry.trans (raise_sinks ..)

theorem endStage_settles (stage : Nat) (hq : s.hup.qualified = false) : Settles s (endStage stage s) := by
  obtain ⟨m, he⟩ := endStage_unqualified stage hq
  rw [he]
  have hentry := (Settles.foldl (stageShedOne_settles stage) allTrays s).trans
    (journalise_settles .stageEnd none (some m) (some (.number stage)) _)
  exact .ite (fun _ => hentry) fun _ => hentry.trans (raise_settles ..)

theorem endStage_swept (stage : Nat) (hc : s.codesPass) (hq : s.hup.qualified = false) :
    Swept (fun k => (s.tray k).shedAt stage) .parked Tray.grant s (endStage stage s) := by
  obtain ⟨m, he⟩ := endStage_unqualified stage hq
  rw [he]
  refine (stageSheds_swept hc stage).beside ?_ ?_ <;> split <;> simp

/-! ### The boundary of stage 1 (R78) -/

theorem advanceStages_one (m : Nat) (h : s.hup.stage = some .one) (ht : s.hup.timer ≤ s.hup.bound1) :
    advanceStages (m + 1) s = if (endStage 1 s).onBattery = true then
      advanceStages m (setStage (some .two) (endStage 1 s)) else endStage 1 s := by
  rw [advanceStages, h]
  dsimp only
  rw [if_pos ht]

theorem isNormal_of_onBattery (h : s.onBattery = true) : s.isNormal = false := by
  unfold State.onBattery at h
  unfold State.isNormal
  cases e : s.hup.state <;> rw [e] at h <;> first | rfl | exact absurd h Bool.false_ne_true

/-- A tick at the boundary of stage 1 alone ends that stage, and its event with it (R78). -/
theorem stageTicked_one (hb : s.onBattery = true) (hq : s.hup.qualified = false) (harmed : s.hup.stageTick.isSome = true)
    (hone : s.hup.stage = some .one) (ht : s.ticked.hup.timer ≤ s.hup.bound1) (ht' : (s.hup.bound2 : Int) < s.ticked.hup.timer) :
    stageTicked s = (setStage (some .two) (endStage 1 s.ticked)).setAgenda .none := by
  have hhup : (endStage 1 s.ticked).hup = s.ticked.hup := (endStage_sinks 1 (s := s.ticked) hq).hup
  rw [stageTicked_armed harmed, advanceStages_one (s := s.ticked) 2 hone ht]
  generalize endStage 1 s.ticked = v at hhup ⊢
  have hvb : v.onBattery = true := by
    unfold State.onBattery
    rw [hhup]
    exact hb
  have hlater : advanceStages 2 (setStage (some .two) v) = setStage (some .two) v := by
    refine advanceStages_unreached 2 nofun (fun _ => ?_) nofun
    show (v.hup.bound2 : Int) < v.hup.timer
    rw [hhup]
    exact ht'
  rw [if_pos hvb, hlater]
  refine finish_outside (s := setStage (some .two) v) (isNormal_of_onBattery (s := setStage (some .two) v) hvb) ?_
  show v.hup.qualified = false
  rw [hhup]
  exact hq

theorem shedAt_one (r : Tray) : r.shedAt 1 = true ↔ r.state = .run ∧ (r.locked = true ∨ r.cfg.cls = 0) := by
  unfold Tray.shedAt Tray.effClass
  rw [Bool.and_eq_true, beq_iff_eq, decide_eq_true_eq]
  refine and_congr_right fun _ => ?_
  cases r.locked
  · simp
  · simp

/-- A lawful RUN record has no fault cause. -/
theorem lawful_run_cause {r : Tray} (hl : r.lawful) (hr : r.state = .run) : r.faultCause = none := by
  obtain ⟨_, _, _, _, hcause, _⟩ := hl
  rw [← Option.not_isSome_iff_eq_none, hcause, hr]
  decide

/-- Settles O48: the sweep of stage 1 chooses the RUN trays that are locked or of class 0. -/
theorem stageOneShedsClassZero : Obligations.StageOneShedsClassZero := by
  intro s h hc hlaw hb hq harmed hone ht ht'
  have htimer : s.ticked.hup.timer = s.hup.timer - 1 := max_eq_left (by omega)
  have hend := stageTicked_one hb hq harmed hone (htimer ▸ ht) (htimer ▸ ht')
  have hhup : (endStage 1 s.ticked).hup = s.ticked.hup := (endStage_sinks 1 (s := s.ticked) hq).hup
  obtain ⟨htray, henable⟩ := endStage_swept 1 (s := s.ticked) hc hq
  rw [exec_stageTick h, hend]
  generalize endStage 1 s.ticked = v at hhup htray henable
  refine ⟨_, rfl, rfl, ?_, fun t => ⟨fun hshed => ?_, fun hshed => ?_⟩⟩
  · show v.hup.timer = s.hup.timer - 1
    rw [hhup, htimer]
  · have hchosen := (shedAt_one _).mpr hshed
    refine ⟨(henable t).trans (if_pos hchosen), ((htray t).trans (if_pos hchosen)).trans ?_⟩
    rw [enter_atRest rfl, ← lawful_run_cause (hlaw t) hshed.1]
    rfl
  · exact (htray t).trans (if_neg (mt (shedAt_one _).mp hshed))

end Sys2Proof.Machine
end

section
/-! SUPPORT. Entry into HOLDUP: the waiting and starting trays are parked, the shortfall pass sheds started ones, and the stages of
length 0 end; what each of these leaves of the new episode and of the trays parked (R76, R78). -/

namespace Sys2Proof.Machine

variable {s t u : State} {n : TrayId}

/-! ### The parkings and the shortfall pass (R76) -/

theorem holdupPark_passes (hc : s.codesPass) (from_ : TrayState) (r : Reason) (n : TrayId) : holdupPark from_ r s n =
    if ((s.tray n).state == from_) = true then journalise .holdupPark (some (.tray n)) (some (s.tray n).commitment) (some r)
      (moveBare n .parked (s.tray n).grant none s) else s := by
  unfold holdupPark
  dsimp only
  rw [move_parked_passes hc]

theorem holdupParks_swept (hc : s.codesPass) (from_ : TrayState) (r : Reason) :
    Swept (fun k => (s.tray k).state == from_) .parked Tray.grant s (allTrays.foldl (holdupPark from_ r) s) := by
  refine Swept.all (I := State.codesPass) (choose := fun x => x.state == from_) (fun s n h => ?_) (fun s n h => ?_) hc
  · exact (holdupPark_evolves from_ r s n).codesPass h
  · rw [holdupPark_passes h]
    refine Swept.step (choose := fun x => x.state == from_) n (fun hd => ?_) fun hd => if_neg hd
    rw [if_pos hd]
    exact ⟨rfl, rfl⟩

theorem holdupParked_evolves (s : State) : Evolves s (holdupParked s) :=
  (Evolves.foldl (holdupPark_evolves .queued .withdrawn) allTrays s).trans
    (.foldl (holdupPark_evolves .inrush .shed) allTrays _)

/-- HOLDUP entry parks the QUEUED and the INRUSH trays with their grants, and turns their outputs off (R76 steps 1 and 2). -/
theorem holdupParked_tray (hc : s.codesPass) (hn : (s.tray n).state = .queued ∨ (s.tray n).state = .inrush) :
    (holdupParked s).tray n = (s.tray n).enter .parked (s.tray n).grant none ∧
      (holdupParked s).hold.enable[n] = false := by
  obtain ⟨ht, he⟩ := holdupParks_swept hc .queued .withdrawn
  have hc' := (Evolves.foldl (holdupPark_evolves .queued .withdrawn) allTrays s).codesPass hc
  unfold holdupParked
  generalize allTrays.foldl (holdupPark .queued .withdrawn) s = v at ht he hc'
  obtain ⟨ht', he'⟩ := holdupParks_swept hc' .inrush .shed
  rw [ht', he']
  rcases hn with hq | hi
  · have hv := (ht n).trans (if_pos (beq_iff_eq.mpr hq))
    have hve := (he n).trans (if_pos (beq_iff_eq.mpr hq))
    have hnot : ¬((v.tray n).state == .inrush) = true := by
      rw [hv]
      exact Bool.false_ne_true
    rw [if_neg hnot, if_neg hnot]
    exact ⟨hv, hve⟩
  · have hv := (ht n).trans (if_neg (by rw [hi]; exact Bool.false_ne_true))
    rw [hv, if_pos (beq_iff_eq.mpr hi), if_pos (beq_iff_eq.mpr hi)]
    exact ⟨rfl, rfl⟩

theorem shortfallMove_settles (r : Reason) (hn : (s.tray n).state.rests = false) : Settles s (shortfallMove r n s) :=
  ((move_parked_settles hn).trans (journalise_settles ..)).trans (raise_settles ..)

theorem sheds_settles (k : Nat) (s : State) : Settles s (sheds k s) := by
  induction k generalizing s with
  | zero => exact .refl s
  | succ k ih =>
    refine .of_codes (sheds_evolves (k + 1) s) fun hc => ?_
    unfold sheds
    rw [shedRound_eq, testMembers_passes hc]
    by_cases hover : s.acct.usable < s.acct.committed
    · rw [if_pos hover]
      cases hn : shedNext s with
      | some n => exact (shortfallMove_settles .shed (enabled_not_rests _ (shedNext_some hn))).trans (ih _)
      | none => exact .refl s
    · rw [if_neg hover]
      exact .refl s

theorem withdrawals_empty (k : Nat) (h : s.queue = []) : withdrawals k s = s := by
  cases k with
  | zero => rfl
  | succ k => simp [withdrawals, h]

/-- With an empty Start Queue the shortfall pass only sheds started trays (R47). -/
theorem shortfallIfDue_empty (h : s.queue = []) : Sinks s (shortfallIfDue s) ∧ Settles s (shortfallIfDue s) := by
  have hpass : shortfallPass s = (sheds 32 s).setAgenda { (sheds 32 s).agenda with shortfall := true } := by
    unfold shortfallPass
    rw [withdrawals_empty 32 h]
  have hsink := (sheds_ends 32 s (inStates_length_le ..)).1
  have hsettle := sheds_settles 32 s
  unfold shortfallIfDue
  rw [hpass]
  generalize sheds 32 s = v at hsink hsettle
  exact ⟨.ite (fun _ => hsink.trans (setAgenda_sinks ..)) fun _ => .refl s,
    .ite (fun _ => hsettle.trans (setAgenda_settles ..)) fun _ => .refl s⟩

/-! ### Within an episode (R78, R80) -/

/-- The second state follows within an episode: of the holdup record the stage alone may change. -/
structure Staged (s u : State) : Prop extends Settles s u where
  hup : ∃ v, u.hup = { s.hup with stage := v }
  due : u.seq.autoDue = s.seq.autoDue
  usable : u.acct.usable = s.acct.usable

theorem Staged.refl (s : State) : Staged s s := ⟨.refl s, ⟨s.hup.stage, rfl⟩, rfl, rfl⟩

theorem Staged.trans (h : Staged s t) (h' : Staged t u) : Staged s u := by
  obtain ⟨v, hv⟩ := h'.hup
  obtain ⟨w, hw⟩ := h.hup
  exact ⟨h.toSettles.trans h'.toSettles, ⟨v, by rw [hv, hw]⟩, h'.due.trans h.due, h'.usable.trans h.usable⟩

theorem Staged.ite {c : Prop} [Decidable c] {a b : State} (ha : c → Staged s a) (hb : ¬c → Staged s b) :
    Staged s (if c then a else b) := by
  split
  · exact ha ‹_›
  · exact hb ‹_›

theorem Staged.qualified (h : Staged s u) : u.hup.qualified = s.hup.qualified := by
  obtain ⟨v, hv⟩ := h.hup
  rw [hv]

theorem Settles.staged (h : Settles s u) (h' : Sinks s u) : Staged s u := ⟨h, ⟨s.hup.stage, h'.hup⟩, h'.due, h'.usable⟩

theorem setStage_staged (v : Option Stage) (s : State) : Staged s (setStage v s) :=
  ⟨.beside (setStage_evolves v s) rfl rfl rfl, ⟨v, rfl⟩, rfl, rfl⟩

theorem endStage_staged (stage : Nat) (hq : s.hup.qualified = false) : Staged s (endStage stage s) :=
  (endStage_settles stage hq).staged (endStage_sinks stage hq)

theorem enterOverrun_staged (s : State) : Staged s (enterOverrun s) :=
  (setStage_staged (some .overrun) s).trans
    (((journalise_settles ..).trans (raise_settles ..)).staged ((journalise_sinks ..).trans (raise_sinks ..)))

theorem advanceStages_staged (k : Nat) (hq : s.hup.qualified = false) : Staged s (advanceStages k s) := by
  induction k generalizing s with
  | zero => exact .refl s
  | succ k ih =>
    have next (stage : Nat) (v : Option Stage) : Staged s (advanceStages k (setStage v (endStage stage s))) := by
      have h := (endStage_staged stage hq).trans (setStage_staged v _)
      exact h.trans (ih (h.qualified.trans hq))
    unfold advanceStages
    split
    · exact .ite (fun _ => .ite (fun _ => next ..) fun _ => endStage_staged 1 hq) fun _ => .refl s
    · exact .ite (fun _ => .ite (fun _ => next ..) fun _ => endStage_staged 2 hq) fun _ => .refl s
    · exact .ite (fun _ => .ite (fun _ => (endStage_staged 3 hq).trans (enterOverrun_staged _)) fun _ => endStage_staged 3 hq)
        fun _ => .refl s
    · exact .refl s

/-! ### The new episode (R76) -/

/-- The holdup record of a new episode, begun in HOLDUP (R76 step 5). -/
def Holdup.episode (h : Holdup) : Holdup :=
  { h with
    state := .holdup, cold := false, qualified := false, stage := some .one, total := h.s1 + h.s2 + h.s3
    timer := (h.s1 + h.s2 + h.s3 : Nat), bound1 := h.s2 + h.s3, bound2 := h.s3, stageTick := some Config.stageTickMs
    episodes := h.episodes + 1 }

/-- HOLDUP has been entered from a rack whose waiting and starting trays were parked. -/
structure EnteredHoldup (s u : State) : Prop where
  hup : ∃ v, u.hup = { s.hup.episode with stage := v }
  first : 0 < s.hup.s1 → u.hup.stage = some .one
  usable : u.acct.usable = s.acct.battery
  due : u.seq.autoDue = false
  pace : u.seq.paceTimer = none
  flag (p : Port) : (u.port p).flags &&& 1 = 1
  rest (n : TrayId) : (s.tray n).state.rests = true → u.tray n = s.tray n ∧ u.hold.enable[n] = s.hold.enable[n]

/-- The rack once the new episode has begun, before any of its stages ends. -/
def episodeBegun (s : State) : State :=
  let v := beginEpisode (shortfallIfDue s.holdupBegun)
  raise .holdup (journalise .holdup none (some v.acct.battery) (some .newEpisode) v)

theorem holdupEntered_eq (s : State) : holdupEntered s = advanceStages 3 (episodeBegun s) := rfl

theorem holdupBegun_tables (s : State) : s.holdupBegun.trays = s.trays ∧ s.holdupBegun.hold = s.hold ∧
    s.holdupBegun.queue = s.queue := by simp [State.holdupBegun]

theorem episodeBegun_beside (s : State) : (episodeBegun s).trays = (shortfallIfDue s.holdupBegun).trays ∧
    (episodeBegun s).hold = (shortfallIfDue s.holdupBegun).hold ∧
    (episodeBegun s).acct = (shortfallIfDue s.holdupBegun).acct ∧
    (episodeBegun s).seq = (shortfallIfDue s.holdupBegun).seq := by simp [episodeBegun, beginEpisode]

theorem episodeBegun_hup (hq : s.queue = []) : (episodeBegun s).hup = s.hup.episode := by
  have hsink := (shortfallIfDue_empty ((holdupBegun_tables s).2.2.trans hq)).1
  show (beginEpisode (shortfallIfDue s.holdupBegun)).hup = _
  unfold beginEpisode
  rw [setHup_hup, hsink.hup]
  rfl

theorem episodeBegun_evolves (s : State) : Evolves s.holdupBegun (episodeBegun s) :=
  (((shortfallIfDue_evolves _).trans (beginEpisode_evolves _)).trans (.entry ..)).trans (.alarm ..)

theorem holdupBegun_codesPass (hc : s.codesPass) : s.holdupBegun.codesPass := fun n => by
  rw [tray_congr (holdupBegun_tables s).1]
  exact hc n

theorem episodeBegun_entered (hc : s.codesPass) (hq : s.queue = []) : EnteredHoldup s (episodeBegun s) := by
  obtain ⟨ht, hh, hqueue⟩ := holdupBegun_tables s
  obtain ⟨hsink, hsettle⟩ := shortfallIfDue_empty (hqueue.trans hq)
  obtain ⟨htrays, hhold, hacct, hseq⟩ := episodeBegun_beside s
  have hcodes := holdupBegun_codesPass hc
  have hhup := episodeBegun_hup hq
  have hmask : Alert.holdup.mask = 1 := by decide
  refine ⟨⟨some .one, hhup⟩, fun _ => by rw [hhup]; rfl, ?_, ?_, ?_, fun p => hmask ▸ raise_flags .holdup _ p,
    fun n hn => ?_⟩
  · rw [hacct]
    exact hsink.usable
  · rw [hseq]
    exact hsink.due
  · rw [hseq]
    exact hsettle.pace hcodes rfl
  · obtain ⟨hr, he⟩ := hsettle.rest hcodes n (by rw [tray_congr ht]; exact hn)
    rw [tray_congr htrays, hhold, hr, he, tray_congr ht, hh]
    exact ⟨rfl, rfl⟩

theorem holdupEntered_enters (hc : s.codesPass) (hq : s.queue = []) : EnteredHoldup s (holdupEntered s) := by
  have h := episodeBegun_entered hc hq
  have hhup := episodeBegun_hup hq
  have hcodes := (episodeBegun_evolves s).codesPass (holdupBegun_codesPass hc)
  rw [holdupEntered_eq]
  generalize episodeBegun s = v at h hhup hcodes
  have hstay : 0 < s.hup.s1 → advanceStages 3 v = v := fun hs => by
    refine advanceStages_unreached 3 (fun _ => ?_) (fun e => ?_) fun e => ?_
    · rw [hhup]
      show ((s.hup.s2 + s.hup.s3 : Nat) : Int) < (s.hup.s1 + s.hup.s2 + s.hup.s3 : Nat)
      omega
    · exact absurd e (by rw [hhup]; exact nofun)
    · exact absurd e (by rw [hhup]; exact nofun)
  have hstaged := advanceStages_staged 3 (s := v) (by rw [hhup]; rfl)
  obtain ⟨x, hx⟩ := hstaged.hup
  refine ⟨⟨x, by rw [hx, hhup]⟩, fun hs => by rw [hstay hs]; exact h.first hs, hstaged.usable.trans h.usable,
    hstaged.due.trans h.due, hstaged.pace hcodes h.pace, fun p => hstaged.evolves.flags p (h.flag p), fun n hn => ?_⟩
  obtain ⟨ht, he⟩ := h.rest n hn
  obtain ⟨ht', he'⟩ := hstaged.rest hcodes n (by rw [ht]; exact hn)
  exact ⟨ht'.trans ht, he'.trans he⟩

/-- AC lost in NORMAL with a battery, or before the capacities are known: HOLDUP at the end of the event (R76). -/
theorem acLost_battery (hn : s.hup.state = .normal) (hb : s.isSettled = false ∨ s.acct.battery ≠ 0) (hc : s.codesPass)
    (hcol : s.collectionsAgree) : ∃ v, EnteredHoldup (holdupParked s) v ∧ acLost s = v.setAgenda .none := by
  have hlost : acLost s = finish (enterHoldup s) := by
    unfold acLost
    rw [hn]
    refine if_neg ?_
    rw [Bool.and_eq_true, beq_iff_eq]
    rintro ⟨hm, hz⟩
    rcases hb with hb | hb
    · exact Bool.false_ne_true (hb.symm.trans hm)
    · exact hb hz
  have hev := holdupParked_evolves s
  have hqueue : (holdupParked s).queue = [] := List.eq_nil_iff_forall_not_mem.mpr fun n hn =>
    ((holdupParked_ends s).2 n).1 (((hev.collectionsAgree hcol).2.2.1 n).mp hn)
  have h := holdupEntered_enters (hev.codesPass hc) hqueue
  rw [hlost, enterHoldup_eq]
  generalize holdupEntered (holdupParked s) = v at h
  obtain ⟨x, hx⟩ := h.hup
  refine ⟨v, h, finish_outside ?_ ?_⟩
  · unfold State.isNormal
    rw [hx]
    rfl
  · rw [hx]
    rfl

/-- Settles O43: the trays that HOLDUP entry parks are at rest, and what follows in the event leaves them so. -/
theorem acLossEntersHoldup : Obligations.AcLossEntersHoldup := by
  intro s h hp hn hb hc hcol
  obtain ⟨v, hv, hlost⟩ := acLost_battery (s := s.withPfail true) hn hb hc hcol
  have hsink := (holdupParked_ends (s.withPfail true)).1
  have hhup : (holdupParked (s.withPfail true)).hup = s.hup := hsink.hup
  have hbattery : (holdupParked (s.withPfail true)).acct.battery = s.acct.battery := by
    have hbasis := hsink.basis
    simp only [Prod.mk.injEq] at hbasis
    exact hbasis.2.1
  have hparked (t : TrayId) := holdupParked_tray (s := s.withPfail true) (n := t) hc
  generalize holdupParked (s.withPfail true) = w at hv hhup hbattery hparked
  obtain ⟨⟨x, hx⟩, hfirst, husable, hdue, hpace, hflag, hrest⟩ := hv
  rw [hhup] at hx hfirst
  rw [hx] at hfirst
  rw [exec_pfailAsserted h hp, hlost]
  refine ⟨v.setAgenda .none, rfl, ?_⟩
  rw [setAgenda_hup, hx]
  refine ⟨rfl, rfl, rfl, rfl, rfl, rfl, rfl, rfl, rfl, hfirst, husable.trans hbattery, hpace, hdue, hflag, fun t ht => ?_⟩
  obtain ⟨hw, hwe⟩ := hparked t ht
  obtain ⟨hv, hve⟩ := hrest t (by rw [hw]; rfl)
  rw [show (v.setAgenda .none).tray t = v.tray t from rfl, hv.trans hw]
  exact ⟨rfl, rfl, rfl, rfl, rfl, hve.trans hwe⟩

end Sys2Proof.Machine
end

section
/-! SUPPORT. SET_LIMITS at a leased port: the ranges of its settings, the zones that it writes, and an answer that lays the new
settings out as the request did (R92, R127, R142, R165). -/

namespace Sys2Proof.Machine

variable {s : State} {p : Port} {f : LimitFields}

/-- Every setting of SET_LIMITS lies in its range, and the settings agree (R142). -/
def limitsGood (f : LimitFields) : Prop :=
  1 ≤ f.wet.toNat ∧ f.wet.toNat ≤ 1023 ∧ f.openFloor.toNat ≤ 1022 ∧ f.openFloor.toNat < f.wet.toNat ∧
    1 ≤ f.confirm.toNat ∧ f.confirm.toNat ≤ 15 ∧ f.warnLimit.toNat < f.overLimit.toNat

theorem limits_inRange_iff (f : LimitFields) : LimitFields.inRange f = true ↔ limitsGood f := by
  simp only [LimitFields.inRange, limitsGood, Bool.and_eq_true, decide_eq_true_eq, and_assoc]

/-! ### A set of zones in one byte -/

/-- The low bits of a number, sent as a group of flags, are the number's low part (R165). -/
theorem flagBits_testBit (n x : Nat) : flagBits ((List.range n).map x.testBit) = x % 2 ^ n := by
  induction n generalizing x with
  | zero => simp [flagBits, Nat.mod_one]
  | succ n ih =>
    have hshift : ((List.range n).map Nat.succ).map x.testBit = (List.range n).map (x / 2).testBit := by
      rw [List.map_map]
      exact List.map_congr_left fun i _ => Nat.testBit_succ x i
    have hlow : (if x.testBit 0 = true then 1 else 0) = x % 2 := by
      rw [Nat.testBit_zero]
      rcases Nat.mod_two_eq_zero_or_one x with h | h <;> simp [h]
    rw [List.range_succ_eq_map, List.map_cons, hshift, flagBits, ih, hlow, Nat.pow_succ', Nat.mod_mul]

/-- The byte whose bits name the zones of a set is the byte of that set. -/
theorem zoneSet_getLsbD (b : Byte) : (zoneSet fun z => b.getLsbD z.val) = b := by
  have hbits : allZones.map (fun z : ZoneId => b.getLsbD z.val) = (List.range 8).map b.toNat.testBit := rfl
  unfold zoneSet flags
  rw [hbits, flagBits_testBit, Nat.mod_eq_of_lt b.isLt]
  exact byte_toNat b

/-! ### The settings -/

/-- SET_LIMITS writes the two switches of every zone and leaves the rest of its record (R92). -/
theorem limitsTaken_zone (p : Port) (f : LimitFields) (s : State) (z : ZoneId) : (limitsTaken p f s).zone z =
    { s.zone z with enabled := f.enabled.getLsbD z.val, openAsLeak := f.openAsLeak.getLsbD z.val } := by
  simp [limitsTaken_eq, settingsEntry, journalise, State.zone, limitsLeak]

/-- The answer to SET_LIMITS lays out its settings as the request did. -/
theorem limitsTaken_payload (p : Port) (f : LimitFields) (s : State) :
    (limitsTaken p f s).limitsPayload = limitFieldBytes f := by
  have hlayout : (limitsTaken p f s).limitsPayload = nat2 f.wet.toNat ++ nat2 f.openFloor.toNat
      ++ [byte f.confirm.toNat, zoneSet fun z => ((limitsTaken p f s).zone z).enabled,
        zoneSet fun z => ((limitsTaken p f s).zone z).openAsLeak]
      ++ nat2 f.warnLimit.toNat ++ nat2 f.overLimit.toNat ++ nat2 f.cutoff.toNat := rfl
  rw [hlayout]
  simp only [limitsTaken_zone, zoneSet_getLsbD, nat2_toNat, byte_toNat]
  rfl

/-! ### SET_LIMITS at a leased port -/

theorem setLimits_refused (h : s.leased p) (tag : Byte) (hf : ¬limitsGood f) :
    exec (.setLimits p tag f) s = .next (respond p tag ⟨.range, []⟩ s) :=
  next_leased h tag (if_neg fun e => hf ((limits_inRange_iff f).mp e))

theorem setLimits_taken (h : s.leased p) (tag : Byte) (hf : limitsGood f) :
    exec (.setLimits p tag f) s = .next (respond p tag ⟨.ok, limitFieldBytes f⟩ (limitsTaken p f s)) :=
  next_leased h tag (by
    simp only [if_pos ((limits_inRange_iff f).mpr hf), limitsTaken_payload]
    rfl)

/-- Settles O30: one test judges the whole group, and one write replaces it. -/
theorem setLimitsReplacesItsGroup : Obligations.SetLimitsReplacesItsGroup := by
  intro s p tag f h
  refine ⟨setLimits_refused h tag, fun hf => ⟨limitsTaken p f s, setLimits_taken h tag hf, rfl, rfl, rfl, rfl,
    ⟨rfl, rfl, rfl⟩, limitsTaken_zone p f s⟩⟩

end Sys2Proof.Machine
end

section
/-! SUPPORT. CLEAR_ZONE at a leased port: the cleared zone, the trays that it returns to IDLE, and an event that owes nothing
(R102, R103). -/

namespace Sys2Proof.Machine

variable {s u : State} {p : Port} {z : ZoneId} {t : TrayId}

/-! ### The cleared zone -/

theorem zoneCleared_zone (z y : ZoneId) (s : State) : (zoneCleared z s).zone y =
    if y = z then { s.zone z with state := .dry, wetCount := 0 } else s.zone y := setZone_zone z y _ s

theorem zoneCleared_latches (z : ZoneId) (s : State) :
    ((zoneCleared z s).hold.closed[z] = false ∧ (zoneCleared z s).hold.leakLatch[z] = false) ∧
    ∀ y : ZoneId, y ≠ z → (zoneCleared z s).hold.closed[y] = s.hold.closed[y] ∧
      (zoneCleared z s).hold.leakLatch[y] = s.hold.leakLatch[y] := by
  refine ⟨by simp [zoneCleared, setLatches, State.setZone], fun y hy => ?_⟩
  have hne : (z : Nat) ≠ y := fun e => hy (Fin.ext e.symm)
  simp [zoneCleared, setLatches, State.setZone, hne]

theorem mem_leakZones (y : ZoneId) : y ∈ s.leakZones ↔ (s.zone y).state = .leak := by
  simp [State.leakZones, mem_allZones]

/-- A zone in LEAK is the only one exactly when every zone in LEAK is that zone. -/
theorem leakZones_singleton (hz : (s.zone z).state = .leak) :
    s.leakZones = [z] ↔ ∀ y, (s.zone y).state = .leak → y = z := by
  refine ⟨fun h y hy => List.mem_singleton.mp (h ▸ (mem_leakZones y).mpr hy), fun h => ?_⟩
  have hnodup : s.leakZones.Nodup := nodup_allZones.filter _
  exact List.perm_singleton.mp ((List.perm_ext_iff_of_nodup hnodup (List.nodup_singleton z)).mpr fun y => by
    rw [mem_leakZones, List.mem_singleton]
    exact ⟨h y, fun e => e ▸ hz⟩)

/-- No zone is left in LEAK exactly when the cleared one was the only one. -/
theorem zoneCleared_noLeak (hz : (s.zone z).state = .leak) :
    (zoneCleared z s).leakZones.isEmpty = true ↔ s.leakZones = [z] := by
  rw [leakZones_singleton hz, List.isEmpty_iff, List.eq_nil_iff_forall_not_mem]
  refine forall_congr' fun y => ?_
  rw [mem_leakZones, zoneCleared_zone]
  by_cases hy : y = z
  · simp [hy]
  · simp [hy]

/-! ### The trays returned -/

/-- A lawful ISOLATED record holds no grant, no commitment, no cause and no mark (R2, R4, R5). -/
theorem lawful_isolated {r : Tray} (hl : r.lawful) (hi : r.state = .isolated) : r.grant = 0 ∧ r.commitment = 0 ∧
    r.faultCause = none ∧ r.adopted = false ∧ r.deferred = false ∧ r.overCap = false := by
  obtain ⟨hcommitment, hgrant, hmarks, hadopted, hcause, _⟩ := hl
  rw [hi] at hcommitment hmarks hadopted hcause
  refine ⟨hgrant (Or.inr (Or.inl hi)), hcommitment, ?_, ?_, hmarks rfl⟩
  · rw [← Option.not_isSome_iff_eq_none, hcause]
    decide
  · exact Bool.eq_false_iff.mpr fun e => absurd (hadopted e) (by decide)

/-- A lawful ISOLATED record returned to IDLE changes in its state and its revision alone. -/
theorem enter_returned {r : Tray} (hl : r.lawful) (hi : r.state = .isolated) :
    r.enter .idle 0 none = { r with state := .idle, revision := r.revision + 1 } := by
  obtain ⟨hg, hc, hf, ha, hd, ho⟩ := lawful_isolated hl hi
  rw [enter_atRest rfl, hg, hc, hf, ha, hd, ho]

/-- The record is one that CLEAR_ZONE returns to IDLE: ISOLATED, and of the zone, or locked where locked trays return (R103). -/
def Tray.returns (z : ZoneId) (lockedToo : Bool) (r : Tray) : Bool :=
  r.state == .isolated && (if r.locked = true then lockedToo else r.cfg.zone == some z)

theorem returnTray_eq (z : ZoneId) (l : Bool) (s : State) (t : TrayId) :
    returnTray z l s t = if (s.tray t).returns z l = true then moveBare t .idle 0 none s else s := rfl

/-- One of the locked trays, once the unlocked ones have returned. -/
def returnLocked (z : ZoneId) (s : State) (t : TrayId) : State := if (s.tray t).locked then returnTray z true s t else s

theorem returnLocked_eq (z : ZoneId) (s : State) (t : TrayId) : returnLocked z s t =
    if ((s.tray t).locked && (s.tray t).returns z true) = true then moveBare t .idle 0 none s else s := by
  unfold returnLocked
  rw [returnTray_eq]
  cases (s.tray t).locked <;> rfl

theorem returnTrays_eq (z : ZoneId) (s : State) : returnTrays z s =
    if s.leakZones.isEmpty = true then allTrays.foldl (returnLocked z) (allTrays.foldl (returnTray z false) s)
    else allTrays.foldl (returnTray z false) s := rfl

/-- Steps that return the trays they choose sweep them to IDLE. -/
theorem returns_swept {choose : Tray → Bool} {f : State → TrayId → State}
    (hf : ∀ s n, f s n = if choose (s.tray n) = true then moveBare n .idle 0 none s else s) (s : State) :
    Swept (fun k => choose (s.tray k)) .idle (fun _ => 0) s (allTrays.foldl f s) := by
  refine Swept.all (I := fun _ => True) (fun _ _ => id) (fun s n _ => ?_) trivial
  rw [hf]
  exact Swept.step n (fun hc => by rw [if_pos hc]; exact ⟨rfl, rfl⟩) fun hc => if_neg hc

theorem returnTrays_tray (z : ZoneId) (s : State) (k : TrayId) : (returnTrays z s).tray k =
    if (s.tray k).returns z s.leakZones.isEmpty = true then (s.tray k).enter .idle 0 none else s.tray k := by
  have hfirst := (returns_swept (returnTray_eq z false) s).tray k
  have hsecond := (returns_swept (choose := fun r => r.locked && r.returns z true) (returnLocked_eq z)
    (allTrays.foldl (returnTray z false) s)).tray k
  rw [returnTrays_eq]
  cases s.leakZones.isEmpty with
  | false => exact hfirst
  | true =>
    rw [if_pos rfl, hsecond, hfirst]
    cases hl : (s.tray k).locked with
    | true => simp [Tray.returns, hl]
    | false =>
      have hsame : (s.tray k).returns z true = (s.tray k).returns z false := by simp [Tray.returns, hl]
      have hstill : ((s.tray k).enter .idle 0 none).locked = false := hl
      rw [hsame]
      split <;> simp [hl, hstill]

/-! ### What the event owes -/

/-- A lawful ISOLATED tray that returns to IDLE gives up no commitment, so its claim owes nothing. -/
theorem moveBare_returned_agenda (hl : (s.tray t).lawful) (hi : (s.tray t).state = .isolated) :
    (moveBare t .idle 0 none s).agenda = s.agenda := by
  obtain ⟨_, hc, _, _, _, ho⟩ := lawful_isolated hl hi
  have hleave : leaveCollection t s = s := by
    unfold leaveCollection
    rw [hi]
  have hput : leaveAndPut t .idle 0 none s = s.putTray t ((s.tray t).enter .idle 0 none) := by
    unfold leaveAndPut
    simp only [ho, Bool.false_and, Bool.false_eq_true, if_false, hleave]
  rw [moveBare_eq, hput]
  simp [joinCollection, State.putTray, hc]

/-- A rack of lawful records whose event owes nothing. -/
def State.owesNothing (s : State) : Prop := s.recordsLawful ∧ s.agenda = Agenda.none

theorem returnTray_owesNothing (z : ZoneId) (l : Bool) (t : TrayId) (h : s.owesNothing) : (returnTray z l s t).owesNothing := by
  refine ⟨(returnTray_evolves z l s t).recordsLawful h.1, ?_⟩
  rw [returnTray_eq]
  split
  · rename_i hr
    rw [Tray.returns, Bool.and_eq_true, beq_iff_eq] at hr
    exact (moveBare_returned_agenda (h.1 t) hr.1).trans h.2
  · exact h.2

theorem returnTrays_owesNothing (z : ZoneId) (h : s.owesNothing) : (returnTrays z s).owesNothing := by
  have hfirst : (allTrays.foldl (returnTray z false) s).owesNothing :=
    List.foldlRecOn _ _ h fun _ hv t _ => returnTray_owesNothing z false t hv
  rw [returnTrays_eq]
  split
  · refine List.foldlRecOn _ _ hfirst fun v hv t _ => ?_
    unfold returnLocked
    split
    · exact returnTray_owesNothing z true t hv
    · exact hv
  · exact hfirst

/-! ### CLEAR_ZONE at a leased port -/

theorem clearZone_refused {b : Byte} (h : s.leased p) (tag : Byte) (hb : zoneOf b = some z)
    (hz : ¬((s.zone z).state = .leak ∧ (s.zone z).lastClass = some .dry)) :
    exec (.clearZone p tag b) s = .next (respond p tag ⟨.state, []⟩ s) :=
  next_leased h tag (by
    simp only [hb, if_neg hz]
    rfl)

theorem clearZoneEffect_owes (p : Port) (hlaw : s.recordsLawful) (ho : s.agenda = Agenda.none) :
    (clearZoneEffect p z s).1.agenda = Agenda.none :=
  (returnTrays_owesNothing (s := zoneCleared z s) z ⟨hlaw, ho⟩).2

theorem clearZone_taken {b : Byte} (h : s.leased p) (tag : Byte) (hb : zoneOf b = some z)
    (hz : (s.zone z).state = .leak ∧ (s.zone z).lastClass = some .dry) (hlaw : s.recordsLawful) :
    exec (.clearZone p tag b) s = .next (respond p tag
      ⟨.ok, (clearZoneEffect p z s).1.zoneRecord z ++ [byte (clearZoneEffect p z s).2]⟩ (clearZoneEffect p z s).1) :=
  next_leased h tag (by
    simp only [hb, if_pos hz]
    exact answerAfter_none _ _ (clearZoneEffect_owes p hlaw h.1.1.2))

theorem clearZoneEffect_evolves (p : Port) (z : ZoneId) (s : State) :
    Evolves (zoneCleared z s) (clearZoneEffect p z s).1 := (returnTrays_evolves z _).trans (.entry ..)

/-- The trays that an accepted CLEAR_ZONE returns, by the zones that were in LEAK (R103). -/
theorem clearZoneEffect_tray (p : Port) (hz : (s.zone z).state = .leak) (hlaw : s.recordsLawful) (t : TrayId) :
    let r := s.tray t
    let back := r.state = .isolated ∧ (if r.locked = true then s.leakZones = [z] else r.cfg.zone = some z)
    (back → (clearZoneEffect p z s).1.tray t = { r with state := .idle, revision := r.revision + 1 }) ∧
      (¬back → (clearZoneEffect p z s).1.tray t = r) := by
  have htray : (clearZoneEffect p z s).1.tray t =
      if (s.tray t).returns z (zoneCleared z s).leakZones.isEmpty = true then (s.tray t).enter .idle 0 none else s.tray t :=
    returnTrays_tray z (zoneCleared z s) t
  have hback : (s.tray t).returns z (zoneCleared z s).leakZones.isEmpty = true ↔ (s.tray t).state = .isolated ∧
      (if (s.tray t).locked = true then s.leakZones = [z] else (s.tray t).cfg.zone = some z) := by
    rw [Tray.returns, Bool.and_eq_true, beq_iff_eq, ← zoneCleared_noLeak hz]
    split <;> simp
  dsimp only
  rw [← hback, htray]
  refine ⟨fun hr => ?_, fun hr => if_neg hr⟩
  rw [if_pos hr]
  exact enter_returned (hlaw t) (hback.mp hr).1

/-- Settles O33: the cleared zone is kept by the moves that return its trays, and no return owes a pass. -/
theorem clearZoneReturnsItsTrays : Obligations.ClearZoneReturnsItsTrays := by
  intro s p tag b h
  refine ⟨fun hb => next_leased h tag (by simp only [zoneOf_none hb]; rfl), fun z hb => ⟨clearZone_refused h tag hb,
    fun hz hdry hlaw => ⟨_, _, clearZone_taken h tag hb ⟨hz, hdry⟩ hlaw, ?_⟩⟩⟩
  have hev := clearZoneEffect_evolves p z s
  have hzone (y : ZoneId) := (zone_congr hev.sameUnits.leak y).trans (zoneCleared_zone z y s)
  obtain ⟨hclosed, hlatch⟩ := hev.valves
  obtain ⟨⟨hc, hl⟩, hother⟩ := zoneCleared_latches z s
  rw [hclosed, hlatch]
  exact ⟨(hzone z).trans (if_pos rfl), fun y hy => (hzone y).trans (if_neg hy), hc, hl, hother,
    clearZoneEffect_tray p hz hlaw⟩

end Sys2Proof.Machine
end

section
/-! SUPPORT. An isolated tray as the rest of a census close finds it: no start, pass or DARK entry takes it out of ISOLATED, and it
stays without a grant, a commitment and an enable (R49, R64, R84, R89, R99). -/

namespace Sys2Proof.Machine

variable {s u : State} {n k : TrayId} {st : TrayState}

/-! ### Isolated trays -/

/-- Every code passes, and the tray is ISOLATED with no grant or commitment and its enable off (R99). -/
structure State.barred (n : TrayId) (s : State) : Prop where
  codes : s.codesPass
  state : (s.tray n).state = .isolated
  grant : (s.tray n).grant = 0
  commitment : (s.tray n).commitment = 0
  enable : s.hold.enable[n] = false

theorem State.barred.ite {c : Prop} [Decidable c] {a b : State} (ha : c → a.barred n) (hb : ¬c → b.barred n) :
    (if c then a else b).barred n := by
  split
  · exact ha ‹_›
  · exact hb ‹_›

/-- The record and the latch of an isolated tray, found again where every code passes. -/
theorem State.barred.of_same (h : s.barred n) (hc : u.codesPass) (ht : u.tray n = s.tray n)
    (he : u.hold.enable[n] = s.hold.enable[n]) : u.barred n :=
  ⟨hc, ht ▸ h.state, ht ▸ h.grant, ht ▸ h.commitment, he.trans h.enable⟩

theorem codesPass_congr (h : u.trays = s.trays) (hs : s.codesPass) : u.codesPass := fun m => by
  rw [tray_congr h]
  exact hs m

theorem State.barred.beside (h : s.barred n) (ht : u.trays = s.trays) (hh : u.hold = s.hold) : u.barred n :=
  h.of_same (codesPass_congr ht h.codes) (tray_congr ht n) (by rw [hh])

/-- A move leaves every tray with the verdict of its check. -/
theorem moveBare_codesPass (k : TrayId) (st : TrayState) (g : Nat) (c : Option FaultCause) (h : s.codesPass) :
    (moveBare k st g c s).codesPass := fun m => by
  rw [moveBare_tray]
  split
  · exact h k
  · exact h m

/-- A tray that is moved from another state is not the isolated one. -/
theorem State.barred.move (h : s.barred n) (hk : (s.tray k).state = st) (hst : st ≠ .isolated) (dest : TrayState) (g : Nat)
    (c : Option FaultCause) : (move k dest g c s).barred n := by
  have hne : k ≠ n := by
    rintro rfl
    exact hst (hk.symm.trans h.state)
  have hc := moveBare_codesPass k dest g c h.codes
  rw [move_passes hc]
  exact h.of_same hc (by rw [moveBare_tray, if_neg hne.symm]) (moveBare_enable_ne hne ..)

/-! ### Admissions and starts -/

theorem admissionWalk_barred (l : List TrayId) (h : s.barred n) : (admissionWalk l s).barred n := by
  induction l generalizing s with
  | nil => exact h
  | cons k l ih =>
    unfold admissionWalk
    refine .ite (fun _ => ih h) fun hp => ?_
    simp only [Bool.or_eq_true, bne_iff_ne, ne_eq, not_or, not_not] at hp
    rw [checkRead_passes (h.codes k)]
    refine .ite (fun _ => ih h) fun _ => .ite (fun _ => ih ?_) fun _ => h
    exact (h.move hp.1 (by decide) ..).beside rfl rfl

theorem admissionIfAllowed_barred (h : s.barred n) : (admissionIfAllowed s).barred n :=
  .ite (fun _ => (admissionWalk_barred s.park h).beside rfl rfl) fun _ => h

theorem startTray_barred (hk : (s.tray k).state = .queued) (j : SlotId) (h : s.barred n) : (startTray k j s).barred n := by
  have hm := h.move hk (by decide) .inrush (s.tray k).grant none
  have hw : (armWindow j k (s.cfg k).window (move k .inrush (s.tray k).grant none s)).barred n := hm.beside rfl rfl
  unfold startTray
  dsimp only
  rw [ite_setPace]
  exact hw.beside rfl rfl

theorem startFirst_barred (l : List TrayId) (h : s.barred n) : (startFirst l s).1.barred n := by
  induction l generalizing s with
  | nil => exact h
  | cons k l ih =>
    unfold startFirst
    rw [checkRead_passes (h.codes k)]
    split
    · exact ih h
    · rename_i hq
      simp only [Bool.or_eq_true, bne_iff_ne, ne_eq, not_or, not_not] at hq
      dsimp only
      split
      · exact ih h
      · split
        · exact startTray_barred hq.1 _ h
        · exact h

theorem gapStarts_barred (m : Nat) (h : s.barred n) : (gapStarts m s).barred n := by
  induction m generalizing s with
  | zero => exact h
  | succ m ih =>
    have hstart := startFirst_barred s.queue h
    unfold gapStarts
    generalize startFirst s.queue s = x at hstart ⊢
    exact .ite (fun _ => .ite (fun _ => ih hstart) fun _ => hstart) fun _ => h

theorem offerStart_barred (h : s.barred n) : (offerStart s).barred n := by
  have hs : (s.setAgenda { s.agenda with opportunity := false }).barred n := h.beside rfl rfl
  exact .ite (fun _ => gapStarts_barred 4 hs) fun _ => hs

/-! ### The end of a claim and of an event -/

theorem enterNormal_barred (h : s.barred n) : (enterNormal s).barred n := by
  obtain ⟨v, r, he⟩ := enterNormal_eq s
  have hadmit : (admissionIfAllowed s.normalBegun).barred n := admissionIfAllowed_barred (h.beside rfl rfl)
  have hdue : (if s.hup.cold = true then (admissionIfAllowed s.normalBegun).setDue true false
      else admissionIfAllowed s.normalBegun).barred n := .ite (fun _ => hadmit.beside rfl rfl) fun _ => hadmit
  rw [he]
  exact hdue.beside rfl rfl

theorem regainTest_barred (h : s.barred n) : (regainTest s).barred n :=
  .ite (fun _ => enterNormal_barred h) fun _ => h

theorem endClaim_barred (h : s.barred n) : (endClaim s).barred n := by
  have hs : (s.setAgenda { s.agenda with admission := false, shortfall := false }).barred n := h.beside rfl rfl
  have hd : (if (s.agenda.admission && !s.agenda.shortfall) = true
      then admissionIfAllowed (s.setAgenda { s.agenda with admission := false, shortfall := false })
      else s.setAgenda { s.agenda with admission := false, shortfall := false }).barred n :=
    .ite (fun _ => admissionIfAllowed_barred hs) fun _ => hs
  exact .ite (fun _ => regainTest_barred (hd.beside rfl rfl)) fun _ => hd

theorem finishRounds_barred (m : Nat) (h : s.barred n) : (finishRounds m s).barred n := by
  induction m generalizing s with
  | zero => exact h
  | succ m ih =>
    have hc := endClaim_barred h
    have ho := offerStart_barred hc
    unfold finishRounds
    exact .ite (fun _ => .ite (fun _ => ih ho) fun _ => ho) fun _ => hc

theorem finish_barred (h : s.barred n) : (finish s).barred n := (finishRounds_barred 33 h).beside rfl rfl

/-! ### DARK (R87, R88, R89) -/

theorem darkEntered_barred (reason : Reason) (fromCold : Bool) (moved : Nat) (h : s.barred n) :
    (darkEntered reason fromCold moved s).barred n := by
  have hv : (journalise .dark none (some moved) (some reason) s.darkBegun).barred n := h.beside rfl rfl
  have hw : (if fromCold = true then journalise .dark none (some moved) (some reason) s.darkBegun
      else raise .dark (journalise .dark none (some moved) (some reason) s.darkBegun)).barred n :=
    .ite (fun _ => hv) fun _ => hv.beside rfl rfl
  exact .ite (fun _ => hw) fun _ => hw.beside rfl rfl

theorem enterDark_barred (reason : Reason) (h : s.barred n) : (enterDark reason s).barred n := by
  have hswept := darkenAll_swept s
  have hrests : (s.tray n).state.darkens = false := by rw [h.state]; rfl
  have hcodes := (Evolves.foldl darkenTray_evolves allTrays s).codesPass h.codes
  rw [enterDark_darkEntered]
  refine darkEntered_barred reason _ _ (h.of_same hcodes ?_ ?_)
  · rw [hswept.tray, hrests, if_neg Bool.false_ne_true]
  · rw [hswept.enable, hrests, if_neg Bool.false_ne_true]

theorem holdupClose_barred (h : s.barred n) : (holdupClose s).barred n :=
  .ite (fun _ => .ite (fun _ => enterDark_barred _ h) fun _ => .ite (fun _ => enterDark_barred _ h) fun _ => h) fun _ => h

end Sys2Proof.Machine
end

section
/-! SUPPORT. A confirmed leak: what the transitions of the other zones leave alone, the LEAK entry of the zone itself, and what the
rest of the close keeps of it (R94, R96, R99, R101). -/

namespace Sys2Proof.Machine

variable {s t u : State} {y z : ZoneId} {n : TrayId}

/-! ### Outside a zone -/

/-- What concerns a zone alone stays: its record and its latches, the confirm count, the flags that are set, and the codes. -/
structure Elsewhere (z : ZoneId) (s u : State) : Prop where
  zone : u.zone z = s.zone z
  confirm : u.leak.confirm = s.leak.confirm
  closed : u.hold.closed[z] = s.hold.closed[z]
  latch : u.hold.leakLatch[z] = s.hold.leakLatch[z]
  flags : ∀ (p : Port) (m : Half), (s.port p).flags &&& m = m → (u.port p).flags &&& m = m
  codes : s.codesPass → u.codesPass

theorem Elsewhere.trans (h : Elsewhere z s t) (h' : Elsewhere z t u) : Elsewhere z s u where
  zone := h'.zone.trans h.zone
  confirm := h'.confirm.trans h.confirm
  closed := h'.closed.trans h.closed
  latch := h'.latch.trans h.latch
  flags p m hm := h'.flags p m (h.flags p m hm)
  codes hc := h'.codes (h.codes hc)

theorem Evolves.elsewhere (h : Evolves s u) (z : ZoneId) : Elsewhere z s u where
  zone := zone_congr h.sameUnits.leak z
  confirm := congrArg Leak.confirm h.sameUnits.leak
  closed := by rw [h.valves.1]
  latch := by rw [h.valves.2]
  flags p _ := h.flags p
  codes := h.codesPass

/-- Nothing of the zone changes, and while every code passes each tray keeps its record and its latch or is isolated. -/
structure Apart (z : ZoneId) (s u : State) : Prop extends Elsewhere z s u where
  trays : s.codesPass → ∀ n, u.tray n = s.tray n ∧ u.hold.enable[n] = s.hold.enable[n] ∨ u.barred n

theorem Apart.barred (h : Apart z s u) (hb : s.barred n) : u.barred n := by
  rcases h.trays hb.codes n with ⟨ht, he⟩ | hu
  · exact hb.of_same (h.codes hb.codes) ht he
  · exact hu

theorem Apart.trans (h : Apart z s t) (h' : Apart z t u) : Apart z s u := by
  refine ⟨h.toElsewhere.trans h'.toElsewhere, fun hc n => ?_⟩
  rcases h.trays hc n with ⟨ht, he⟩ | hb
  · rcases h'.trays (h.codes hc) n with ⟨ht', he'⟩ | hb'
    · exact Or.inl ⟨ht'.trans ht, he'.trans he⟩
    · exact Or.inr hb'
  · exact Or.inr (h'.barred hb)

theorem Elsewhere.apart (h : Elsewhere z s u) (ht : s.codesPass → u.trays = s.trays ∧ u.hold.enable = s.hold.enable) :
    Apart z s u := ⟨h, fun hc n => by
  obtain ⟨ht, he⟩ := ht hc
  exact Or.inl ⟨tray_congr ht n, by rw [he]⟩⟩

theorem Apart.refl (s : State) : Apart z s s := ((Evolves.refl s).elsewhere z).apart fun _ => ⟨rfl, rfl⟩

theorem Apart.ite {c : Prop} [Decidable c] {a b : State} (ha : c → Apart z s a) (hb : ¬c → Apart z s b) :
    Apart z s (if c then a else b) := by
  split
  · exact ha ‹_›
  · exact hb ‹_›

theorem Apart.foldl {α : Type} {f : State → α → State} {l : List α} (h : ∀ s, ∀ a ∈ l, Apart z s (f s a)) (s : State) :
    Apart z s (l.foldl f s) := by
  induction l generalizing s with
  | nil => exact .refl s
  | cons a l ih => exact (h s a List.mem_cons_self).trans (ih (fun s b hb => h s b (List.mem_cons_of_mem a hb)) _)

/-! ### Changes beside the trays -/

theorem Apart.aside (hz : u.zone z = s.zone z) (hc : u.leak.confirm = s.leak.confirm) (ht : u.trays = s.trays)
    (hh : u.hold = s.hold) (hA : u.portA.flags = s.portA.flags) (hB : u.portB.flags = s.portB.flags) : Apart z s u := by
  have flags (p : Port) : (u.port p).flags = (s.port p).flags := by
    cases p
    · exact hA
    · exact hB
  exact Elsewhere.apart ⟨hz, hc, by rw [hh], by rw [hh], fun p _ hm => by rwa [flags p], codesPass_congr ht⟩
    fun _ => ⟨ht, by rw [hh]⟩

theorem journalise_apart (k : Kind) (a : Option Subject) (v : Option Nat) (r : Option Reason) (s : State) :
    Apart z s (journalise k a v r s) := ((Evolves.entry k a v r s).elsewhere z).apart fun _ => ⟨rfl, rfl⟩

theorem raise_apart (c : Alert) (s : State) : Apart z s (raise c s) := ((Evolves.alarm c s).elsewhere z).apart fun _ => ⟨rfl, rfl⟩

theorem setZone_apart (h : y ≠ z) (r : Zone) (s : State) : Apart z s (s.setZone y r) :=
  .aside (by rw [setZone_zone, if_neg h.symm]) rfl rfl rfl rfl rfl

theorem setLatches_apart (h : y ≠ z) (v : Bool) (s : State) : Apart z s (setLatches y v s) := by
  have hne : (y : Nat) ≠ z := fun e => h (Fin.ext e)
  exact ⟨⟨rfl, rfl, by simp [setLatches, hne], by simp [setLatches, hne], fun p _ hm => by cases p <;> exact hm, id⟩,
    fun _ _ => Or.inl ⟨rfl, rfl⟩⟩

theorem setSense_apart (x : Sense) (s : State) : Apart z s { s with sense := x } := .aside rfl rfl rfl rfl rfl rfl

/-! ### The trays of a LEAK entry (R99) -/

theorem isolateAll_swept (h : s.codesPass) (z : ZoneId) :
    Swept (fun k => (s.tray k).leavesAt z) .isolated (fun _ => 0) s (allTrays.foldl (isolateIfInZone z) s) := by
  refine Swept.all (I := State.codesPass) (choose := fun r => r.leavesAt z)
    (fun s n hs => isolateIfInZone_codesPass hs z n) (fun s n hs => ?_) h
  rw [isolateIfInZone_passes hs]
  exact Swept.step (choose := fun r => r.leavesAt z) n (fun hl => by rw [if_pos hl]; exact ⟨rfl, rfl⟩) fun hl => if_neg hl

/-- A tray that has been swept to ISOLATED is isolated. -/
theorem Swept.barred {chosen : TrayId → Bool} (h : Swept chosen .isolated (fun _ => 0) s u) (hc : u.codesPass)
    (hn : chosen n = true) : u.barred n := by
  have ht := (h.tray n).trans (if_pos hn)
  exact ⟨hc, by rw [ht]; rfl, by rw [ht]; rfl, by rw [ht]; rfl, (h.enable n).trans (if_pos hn)⟩

theorem isolateAll_apart (y z : ZoneId) (s : State) : Apart z s (allTrays.foldl (isolateIfInZone y) s) := by
  refine ⟨(Evolves.foldl (isolateIfInZone_evolves y) allTrays s).elsewhere z, fun hc n => ?_⟩
  have hswept := isolateAll_swept hc y
  by_cases hn : (s.tray n).leavesAt y = true
  · exact Or.inr (hswept.barred (isolateAll_codesPass hc y _) hn)
  · exact Or.inl ⟨(hswept.tray n).trans (if_neg hn), (hswept.enable n).trans (if_neg hn)⟩

/-! ### The transitions of another zone (R96, R97) -/

theorem enterLeak_fst (z : ZoneId) (s : State) : (enterLeak z s).1 =
    allTrays.foldl (isolateIfInZone z) (setLatches z true (s.setZone z { s.zone z with state := .leak })) := by
  unfold enterLeak
  dsimp only

theorem enterLeak_apart (h : y ≠ z) (s : State) : Apart z s (enterLeak y s).1 := by
  rw [enterLeak_fst]
  exact ((setZone_apart h _ s).trans (setLatches_apart h true _)).trans (isolateAll_apart y z _)

theorem countWet_apart (h : y ≠ z) (source : LeakSource) (s : State) : Apart z s (countWet y source s) := by
  unfold countWet
  dsimp only
  generalize (if (s.zone y).state == .opened then 1 else (s.zone y).wetCount + 1) = count
  have hcount : Apart z s (s.setZone y { s.zone y with wetCount := count }) := setZone_apart h _ s
  refine hcount.trans (.ite (fun _ => ?_) fun _ => .ite (fun _ => .refl _) fun _ => ?_)
  · exact ((enterLeak_apart h _).trans (journalise_apart ..)).trans (raise_apart ..)
  · exact ((setZone_apart h _ _).trans (journalise_apart ..)).trans (raise_apart ..)

theorem becomeOpen_apart (h : y ≠ z) (s : State) : Apart z s (becomeOpen y s) :=
  (setZone_apart h _ s).trans (.ite (fun _ => .refl _) fun _ => (journalise_apart ..).trans (raise_apart ..))

theorem holdLifted_if_apart (s : State) (n : TrayId) : Apart z s (if liftedFrom true n s then holdLifted n s else s) := by
  refine ((holdLifted_if_evolves s n).elsewhere z).apart fun _ => ?_
  unfold holdLifted
  dsimp only
  split
  · split <;> exact ⟨rfl, rfl⟩
  · exact ⟨rfl, rfl⟩

theorem becomeDry_apart (h : y ≠ z) (s : State) : Apart z s (becomeDry y s) :=
  (setZone_apart h _ s).trans (.ite (fun _ => .refl _) fun _ =>
    (journalise_apart ..).trans (.foldl (fun s n _ => holdLifted_if_apart s n) _))

theorem zoneTransition_apart (h : y ≠ z) (cls : ZoneClass) (source : LeakSource) (s : State) :
    Apart z s (zoneTransition cls source y s) := by
  refine (setZone_apart h { s.zone y with lastClass := some cls } s).trans (.ite (fun _ => .refl _) fun _ => ?_)
  cases cls with
  | wet => exact countWet_apart h source _
  | opened => exact .ite (fun _ => countWet_apart h _ _) fun _ => becomeOpen_apart h _
  | dry => exact becomeDry_apart h _

theorem judgeZone_apart (h : y ≠ z) (judged : Vector (Option (ZoneClass × LeakSource)) 8) (s : State) :
    Apart z s (judgeZone judged s y) := by
  unfold judgeZone
  split
  · exact zoneTransition_apart h ..
  · exact .refl s

/-! ### The LEAK entry of the zone (R96, R99, R101) -/

/-- The zone is in LEAK on a wet classification, both its latches are set, and LEAK is set on both ports (R98, R101). -/
structure State.leaked (z : ZoneId) (s : State) : Prop where
  state : (s.zone z).state = .leak
  lastClass : (s.zone z).lastClass = some .wet
  closed : s.hold.closed[z] = true
  latch : s.hold.leakLatch[z] = true
  flags : ∀ p : Port, (s.port p).flags &&& 0x40 = 0x40

theorem Elsewhere.leaked (h : Elsewhere z s u) (hs : s.leaked z) : u.leaked z :=
  ⟨h.zone ▸ hs.state, h.zone ▸ hs.lastClass, h.closed.trans hs.closed, h.latch.trans hs.latch, fun p => h.flags p _ (hs.flags p)⟩

/-- The zone in LEAK with its latches set, before its trays are isolated. -/
def leakBegun (z : ZoneId) (s : State) : State :=
  setLatches z true (s.setZone z { s.zone z with state := .leak, wetCount := (s.zone z).wetCount + 1, lastClass := some .wet })

/-- The zone in LEAK with its trays isolated. -/
def leakEntered (z : ZoneId) (s : State) : State := allTrays.foldl (isolateIfInZone z) (leakBegun z s)

theorem setZone_setZone (z : ZoneId) (r r' : Zone) (s : State) : (s.setZone z r).setZone z r' = s.setZone z r' := by
  simp [State.setZone]

/-- A wet count that reaches the confirm count takes a SUSPECT zone to LEAK (R96). -/
theorem countWet_confirms (source : LeakSource) (hz : (s.zone z).state = .suspect)
    (hn : s.leak.confirm ≤ (s.zone z).wetCount + 1) : ∃ v, countWet z source s = raise .leak
      (journalise .leak (some (.zone z)) v (some source.reason)
        (enterLeak z (s.setZone z { s.zone z with wetCount := (s.zone z).wetCount + 1 })).1) := by
  have hcount : (if (s.zone z).state == .opened then 1 else (s.zone z).wetCount + 1) = (s.zone z).wetCount + 1 := by
    rw [hz]
    rfl
  refine ⟨some (enterLeak z (s.setZone z { s.zone z with wetCount := (s.zone z).wetCount + 1 })).2, ?_⟩
  unfold countWet
  dsimp only
  rw [hcount]
  exact if_pos hn

/-- A wet classification that brings a SUSPECT zone to the confirm count. -/
theorem zoneTransition_confirms (source : LeakSource) (hz : (s.zone z).state = .suspect)
    (hn : s.leak.confirm ≤ (s.zone z).wetCount + 1) : ∃ v, zoneTransition .wet source z s = raise .leak
      (journalise .leak (some (.zone z)) v (some source.reason) (leakEntered z s)) := by
  have hself := setZone_zone_self z { s.zone z with lastClass := some .wet } s
  obtain ⟨v, hv⟩ := countWet_confirms source (s := s.setZone z { s.zone z with lastClass := some .wet })
    (by rw [hself]; exact hz) (by rw [hself]; exact hn)
  refine ⟨v, ?_⟩
  unfold zoneTransition
  dsimp only
  rw [if_neg (by rw [hself, hz]; decide), hv, enterLeak_fst, setZone_zone_self, setZone_setZone, setZone_setZone, hself]
  rfl

theorem leakBegun_codesPass (h : s.codesPass) (z : ZoneId) : (leakBegun z s).codesPass := codesPass_congr (s := s) rfl h

/-- The LEAK entry of a zone, with its entry made and its alert set, leaves the zone in LEAK. -/
theorem leakEntered_leaked (z : ZoneId) (a : Option Subject) (v : Option Nat) (r : Option Reason) (s : State) :
    (raise .leak (journalise .leak a v r (leakEntered z s))).leaked z := by
  have hev : Evolves (leakBegun z s) (raise .leak (journalise .leak a v r (leakEntered z s))) :=
    ((Evolves.foldl (isolateIfInZone_evolves z) allTrays _).trans (.entry ..)).trans (.alarm ..)
  have hzone : (leakBegun z s).zone z =
    { s.zone z with state := .leak, wetCount := (s.zone z).wetCount + 1, lastClass := some .wet } := setZone_zone_self ..
  have hmask : Alert.leak.mask = 0x40 := by decide
  obtain ⟨hclosed, hlatch⟩ := hev.valves
  have hkept := (zone_congr hev.sameUnits.leak z).trans hzone
  refine ⟨by rw [hkept], by rw [hkept], ?_, ?_, fun p => hmask ▸ raise_flags .leak _ p⟩
  · rw [hclosed]
    simp [leakBegun, setLatches]
  · rw [hlatch]
    simp [leakBegun, setLatches]

/-- The LEAK entry of a zone isolates every tray of the zone that is not FAULTED (R99). -/
theorem leakEntered_barred (hc : s.codesPass) (hn : (s.tray n).inZone z = true) (hf : (s.tray n).state ≠ .faulted)
    (hi : (s.tray n).state ≠ .isolated) : (leakEntered z s).barred n := by
  have hb := leakBegun_codesPass hc z
  refine (isolateAll_swept hb z).barred (isolateAll_codesPass hb z _) ?_
  show ((s.tray n).inZone z && (s.tray n).state.isolable) = true
  rw [hn, Bool.true_and]
  cases h : (s.tray n).state with
  | faulted => exact absurd h hf
  | isolated => exact absurd h hi
  | _ => rfl

/-- A tray that is isolated already stays so. -/
theorem leakEntered_keeps (h : s.barred n) : (leakEntered z s).barred n :=
  (isolateAll_apart z z _).barred (h.of_same (leakBegun_codesPass h.codes z) rfl rfl)

/-! ### The close (R94, R125, R126) -/

/-- The close once the marks have been taken and the marked trays read (R93, R95). -/
def leakRead (s : State) : State :=
  allTrays.foldl (readMark s.leak.reporting) { s with leak := { s.leak with reporting := Vector.replicate 32 false } }

/-- The classifications of a close. -/
def leakJudged (s : State) : Vector (Option (ZoneClass × LeakSource)) 8 := Vector.ofFn (classify (leakRead s) s.leak.reporting)

/-- The close with its classifications handed back to the published bank. -/
def leakClassed (s : State) : State :=
  { leakRead s with sense := { (leakRead s).sense with
      published := { (leakRead s).sense.published with classes := (leakJudged s).map (Option.map Prod.fst) } } }

theorem leakClose_eq (s : State) : leakClose s = allZones.foldl (judgeZone (leakJudged s)) (leakClassed s) := rfl

theorem readMark_apart (marks : Vector Bool 32) (s : State) (n : TrayId) : Apart z s (readMark marks s n) := by
  refine ((readMark_evolves marks s n).elsewhere z).apart fun hc => ?_
  unfold readMark
  rw [checkRead_passes (hc n)]
  dsimp only
  split
  · split
    · exact ⟨rfl, rfl⟩
    · split <;> exact ⟨rfl, rfl⟩
  · exact ⟨rfl, rfl⟩

theorem leakRead_apart (z : ZoneId) (s : State) : Apart z s (leakRead s) := by
  have hmarks : Apart z s { s with leak := { s.leak with reporting := Vector.replicate 32 false } } :=
    .aside rfl rfl rfl rfl rfl rfl
  exact hmarks.trans (.foldl (fun s n _ => readMark_apart _ s n) _)

theorem leakRead_evolves (s : State) :
    Evolves { s with leak := { s.leak with reporting := Vector.replicate 32 false } } (leakRead s) :=
  .foldl (readMark_evolves _) allTrays _

theorem leakClassed_apart (z : ZoneId) (s : State) : Apart z s (leakClassed s) := (leakRead_apart z s).trans (setSense_apart ..)

/-- A zone whose rope is wet, and enabled, is classified WET (R94). -/
theorem classify_wet (marks : Vector Bool 32) {m : Nat} (he : (s.zone z).enabled = true) (hm : s.publishedMax z = some m)
    (hw : s.leak.wet ≤ m) : ∃ source, classify s marks z = some (.wet, source) := by
  unfold classify
  by_cases ht : s.trayReports marks z = true
  · exact ⟨.trayReport, if_pos ht⟩
  · refine ⟨.rope, ?_⟩
    rw [if_neg ht, he, hm]
    simp [hw]

theorem leakJudged_wet {m : Nat} (he : (s.zone z).enabled = true) (hm : s.publishedMax z = some m) (hw : s.leak.wet ≤ m) :
    ∃ source, (leakJudged s)[z] = some (.wet, source) := by
  have hunits := (leakRead_evolves s).sameUnits
  have hmax : (leakRead s).publishedMax z = some m := by
    unfold State.publishedMax
    rw [hunits.sense]
    exact hm
  have hwet : (leakRead s).leak.wet ≤ m := by
    rw [hunits.leak]
    exact hw
  obtain ⟨source, h⟩ := classify_wet s.leak.reporting (by rw [(leakRead_apart z s).zone]; exact he) hmax hwet
  exact ⟨source, by simpa [leakJudged] using h⟩

/-- The transitions of a close in zone order: those before and after a zone's own leave it alone. -/
theorem judgeZones_apart (judged : Vector (Option (ZoneClass × LeakSource)) 8) (z : ZoneId) (s : State) :
    ∃ v, Apart z s v ∧ Apart z (judgeZone judged v z) (allZones.foldl (judgeZone judged) s) := by
  obtain ⟨before, after, hzones⟩ := List.append_of_mem (mem_allZones z)
  have hdistinct : (before ++ z :: after).Nodup := hzones ▸ nodup_allZones
  rw [List.nodup_middle, List.nodup_cons, List.mem_append, not_or] at hdistinct
  obtain ⟨⟨hbefore, hafter⟩, _⟩ := hdistinct
  rw [hzones, List.foldl_append, List.foldl_cons]
  exact ⟨_, .foldl (fun v y hy => judgeZone_apart (fun e : y = z => hbefore (e ▸ hy)) judged v) s,
    .foldl (fun v y hy => judgeZone_apart (fun e : y = z => hafter (e ▸ hy)) judged v) _⟩

/-- What the Leak Monitor makes of a zone whose rope stays wet to the confirm count (R94, R96, R99, R101). -/
theorem leakClose_leaks {m : Nat} (hc : s.codesPass) (hz : (s.zone z).state = .suspect) (he : (s.zone z).enabled = true)
    (hn : s.leak.confirm ≤ (s.zone z).wetCount + 1) (hm : s.publishedMax z = some m) (hw : s.leak.wet ≤ m) :
    (leakClose s).leaked z ∧ ∀ n : TrayId, (s.tray n).inZone z = true → (s.tray n).state ≠ .faulted →
      (s.tray n).state ≠ .isolated → (leakClose s).barred n := by
  obtain ⟨source, hjudged⟩ := leakJudged_wet he hm hw
  obtain ⟨v, hothers, hlater⟩ := judgeZones_apart (leakJudged s) z (leakClassed s)
  have hfirst := (leakClassed_apart z s).trans hothers
  obtain ⟨k, hk⟩ := zoneTransition_confirms source (s := v) (z := z) (by rw [hfirst.zone]; exact hz)
    (by rw [hfirst.zone, hfirst.confirm]; exact hn)
  have hown : judgeZone (leakJudged s) v z = raise .leak (journalise .leak (some (.zone z)) k (some source.reason)
      (leakEntered z v)) := by
    unfold judgeZone
    rw [hjudged]
    exact hk
  rw [hown, ← leakClose_eq] at hlater
  refine ⟨hlater.leaked (leakEntered_leaked ..), fun n hin hf hi => ?_⟩
  refine hlater.barred ((raise_apart (z := z) ..).barred ((journalise_apart (z := z) ..).barred ?_))
  rcases hfirst.trays hc n with ⟨ht, _⟩ | hb
  · exact leakEntered_barred (hfirst.codes hc) (ht ▸ hin) (ht ▸ hf) (ht ▸ hi)
  · exact leakEntered_keeps hb

theorem publishBank_apart (z : ZoneId) (s : State) : Apart z s (publishBank s) := .aside rfl rfl rfl rfl rfl rfl

theorem busCondition_apart (outside was : Bool) (value : Nat) (entered ended : Reason) {write : Bool → State → State}
    (hw : ∀ v s, Apart z s (write v s)) (s : State) : Apart z s (busCondition outside was value entered ended write s) :=
  .ite (fun _ => (Apart.ite (fun _ => .refl s) fun _ => (hw ..).trans (journalise_apart ..)).trans (raise_apart ..))
    fun _ => .ite (fun _ => (hw ..).trans (journalise_apart ..)) fun _ => .refl s

theorem busLimitClose_apart (z : ZoneId) (s : State) : Apart z s (busLimitClose s) := by
  have low (v : Bool) (s : State) : Apart z s (setLow v s) := setSense_apart _ s
  have high (v : Bool) (s : State) : Apart z s (setHigh v s) := setSense_apart _ s
  unfold busLimitClose
  cases s.busMin with
  | none =>
    dsimp only
    split
    · exact busCondition_apart _ _ _ _ _ high s
    · exact .refl s
  | some v =>
    refine (busCondition_apart (decide (v < s.sense.warnLimit)) s.sense.low v .low .lowCleared low s).trans ?_
    dsimp only
    split
    · exact busCondition_apart _ _ _ _ _ high _
    · exact .refl _

theorem releaseAll_apart (z : ZoneId) (s : State) : Apart z s (s.mapPorts PortRec.releaseAll) :=
  .aside rfl rfl rfl rfl rfl rfl

/-- What follows the Leak Monitor's part of a close keeps a zone in LEAK. -/
theorem censusClosed_leaked (h : (leakClose (publishBank s)).leaked z) : (censusClosed s).leaked z := by
  unfold censusClosed
  generalize leakClose (publishBank s) = v at h ⊢
  exact ((((holdupClose_evolves v).elsewhere z).trans (busLimitClose_apart z _).toElsewhere).trans
    (((finish_evolves _).elsewhere z).trans (releaseAll_apart z _).toElsewhere)).leaked h

/-- What follows the Leak Monitor's part of a close keeps an isolated tray isolated. -/
theorem censusClosed_barred (h : (leakClose (publishBank s)).barred n) : (censusClosed s).barred n :=
  (releaseAll_apart 0 _).barred (finish_barred ((busLimitClose_apart 0 _).barred (holdupClose_barred h)))

theorem exec_censusClose (h : s.running) (ht : s.sense.timer.isSome = true) :
    exec .censusClose s = .next (censusClosed s) := by
  have hclose : censusExpired s = censusClosed s := by
    unfold censusExpired
    rw [← Option.not_isSome, ht]
    rfl
  exact congrArg Host.Outcome.next ((coreEvent_running h _).trans hclose)

/-- Settles O51: the zone's own transition sets the latches and isolates its trays, and nothing else of the close undoes it. -/
theorem confirmedLeakIsolatesItsTrays : Obligations.ConfirmedLeakIsolatesItsTrays := by
  intro s z m h hc ht hz he hn hm hw
  obtain ⟨hleak, htrays⟩ := leakClose_leaks (s := publishBank s) (m := m) hc hz he hn hm hw
  obtain ⟨hstate, hclass, hclosed, hlatch, hflags⟩ := censusClosed_leaked hleak
  refine ⟨_, exec_censusClose h ht, hstate, hclass, hclosed, hlatch, hflags, fun t hin hf hi => ?_⟩
  obtain ⟨_, hisolated, hgrant, hcommitment, henable⟩ := censusClosed_barred (htrays t hin hf hi)
  exact ⟨hisolated, hgrant, hcommitment, henable⟩

end Sys2Proof.Machine
end

section
/-! SUPPORT. What a poll's end leaves of the Station Link: the record of the station that was polled, the round, and the poll of
the next station; and the frames and expiries that no poll awaits (R106 to R112, R164). -/

namespace Sys2Proof.Machine

variable {s u : State} {q : Poll}

/-! ### The parts of the Station Link -/

/-- What the handing on of a reply, a capacity claim and a round end may write beside the rack: the local leak marks (R115). -/
def leakAlone : Part → Bool
  | .leak => true
  | _ => false

/-- Passes, claims and the handing on of a reply leave the Station Link as it was. -/
theorem Runs.link (h : Runs leakAlone s u) : u.link = s.link := by
  have hstations : u.link.stations = s.link.stations := h.same (x := .stations) rfl
  have hpoll := h.same (x := .poll) rfl
  have htiming := h.same (x := .timing) rfl
  simp only [Part.same, Prod.mk.injEq] at hpoll htiming
  obtain ⟨houtstanding, htimer, hrounds⟩ := hpoll
  obtain ⟨htimeout, -⟩ := htiming
  cases hu : u.link
  cases hs : s.link
  simp_all only

theorem setStation_station (a b : StationId) (r : Station) (s : State) :
    (s.setStation a r).station b = if b = a then r else s.station b := by
  simp only [State.station, State.setStation, Fin.getElem_fin, Vector.getElem_set, Fin.ext_iff, eq_comm (a := a.val)]

theorem station_congr (h : u.link = s.link) (a : StationId) : u.station a = s.station a :=
  congrArg (fun k : Link => k.stations[a]) h

/-! ### The next poll (R107, R108, R109) -/

theorem ne_nextAddress : ∀ a : StationId, a ≠ nextAddress a := by decide

theorem pollFor_address (a : StationId) (s : State) : (s.pollFor a).address = a := by
  unfold State.pollFor
  split <;> rfl

theorem sendPoll_outstanding (a : StationId) (s : State) : (sendPoll a s).link.outstanding = some (s.pollFor a) := rfl

theorem sendPoll_replyTimer (a : StationId) (s : State) :
    (sendPoll a s).link.replyTimer = some s.link.replyTimeout := by
  unfold sendPoll
  dsimp only
  split <;> rfl

theorem sendPoll_rounds (a : StationId) (s : State) : (sendPoll a s).link.rounds = s.link.rounds := by
  unfold sendPoll
  dsimp only
  split <;> rfl

/-- A poll replaces the last poll fields of a tray that is polled, and no other station field (R106, R108). -/
theorem sendPoll_station (a b : StationId) (s : State) : (sendPoll a s).station b =
    if b = a ∧ (s.pollFor a).sent.isSome = true then { s.station b with lastPoll := (s.pollFor a).sent }
    else s.station b := by
  have hlink : (sendPoll a s).station b = (if (s.pollFor a).sent.isSome then
      s.setStation a { s.station a with lastPoll := (s.pollFor a).sent } else s).station b := rfl
  rw [hlink]
  by_cases hb : b = a
  · subst hb
    split <;> simp_all [setStation_station]
  · split <;> simp [setStation_station, hb]

/-- The round counter's step is all that a round end does to the Station Link (R107). -/
theorem roundEnd_link (s : State) : (roundEnd s).link = { s.link with rounds := s.link.rounds + 1 } := by
  have hrecover : Runs leakAlone (countRound s) (recoverIfDue (countRound s)) :=
    .ite (fun _ => recoveringEnds_runs _) fun _ => .refl _
  have hrun := hrecover.trans (.evolves ((endClaim_evolves _).trans (automaticRun_evolves _)))
  rw [roundEnd_eq]
  split
  · exact (admissionDue_link _).trans hrun.link
  · exact hrun.link

/-- The poll of an address has ended and the next station of the round is polled: what that leaves of the Station Link. -/
structure NextPolled (a : StationId) (s u : State) : Prop where
  address : u.link.outstanding.map Poll.address = some (nextAddress a)
  timer : u.link.replyTimer = some s.link.replyTimeout
  rounds : u.link.rounds = if a = 31 then s.link.rounds + 1 else s.link.rounds
  own : u.station a = s.station a
  others : ∀ b, { u.station b with lastPoll := (s.station b).lastPoll } = s.station b

theorem NextPolled.of_link {a : StationId} {v : State} (h : NextPolled a s u) (hl : s.link = v.link) :
    NextPolled a v u := by
  have hstation := station_congr hl
  exact ⟨h.address, hl ▸ h.timer, hl ▸ h.rounds, hstation a ▸ h.own, fun b => hstation b ▸ h.others b⟩

/-- The end of a poll counts the round at tray 31 and sends the next poll; every station keeps its record, but for the last poll
of the one now polled (R107, R108, R109; log entry 14). -/
theorem pollEnded_nextPolled (a : StationId) (s : State) : NextPolled a s (pollEnded a s) := by
  have hround : (if a = 31 then roundEnd s else endClaim s).link =
      { s.link with rounds := if a = 31 then s.link.rounds + 1 else s.link.rounds } := by
    split
    · exact roundEnd_link s
    · exact (endClaim_evolves s).sameUnits.link
  have hlink : (finish (if a = 31 then roundEnd s else endClaim s)).link = _ :=
    (finish_evolves _).sameUnits.link.trans hround
  unfold pollEnded
  dsimp only
  generalize finish (if a = 31 then roundEnd s else endClaim s) = v at hlink ⊢
  have hstation (b : StationId) : v.station b = s.station b := by
    unfold State.station
    rw [hlink]
  refine ⟨?_, ?_, ?_, ?_, fun b => ?_⟩
  · rw [sendPoll_outstanding, Option.map_some, pollFor_address]
  · rw [sendPoll_replyTimer, hlink]
  · rw [sendPoll_rounds, hlink]
  · rw [sendPoll_station, if_neg fun h => ne_nextAddress a h.1, hstation]
  · rw [sendPoll_station, hstation]
    split <;> rfl

/-! ### A valid reply and a miss (R110, R111, R112) -/

/-- The record of a station that has given a valid reply (R110, R111). -/
def Station.replies (r : Station) (reply : Reply) : Station :=
  { r with last := some reply, replied := true, misses := 0, presence := .present }

/-- The record of a station that has missed its poll (R110, R112). -/
def Station.missed (r : Station) (outputEnabled : Bool) : Station :=
  let misses := min 3 (r.misses + 1)
  { r with
    misses := misses
    presence := if misses = 3 then (if outputEnabled = true then .silent else .absent) else r.presence }

theorem replyHandedOn_runs (q : Poll) (reply : Reply) (was : Option Nat) (wasHeld : Bool) (s : State) :
    Runs leakAlone s (replyHandedOn q reply was wasHeld s) := by
  unfold replyHandedOn
  split
  · refine .trans ?_ (.ite (fun _ => .evolves (holdLifted_evolves ..)) fun _ => .refl _)
    split
    · exact trayHandOn_runs rfl ..
    · exact .refl s
  · exact claimIfChanged_runs ..

/-- A valid reply writes its own station's record, and nothing else of the Station Link. -/
theorem takeReply_link (q : Poll) (reply : Reply) (s : State) :
    (takeReply q reply s).link = (s.setStation q.address ((s.station q.address).replies reply)).link := by
  have hnoted : Runs leakAlone (s.setStation q.address ((s.station q.address).replies reply)) (replyNoted q reply s) :=
    .ite (fun _ => .refl _) fun _ => journalise_runs ..
  rw [takeReply_eq]
  exact (hnoted.trans (replyHandedOn_runs ..)).link

/-- A miss writes its own station's record, and nothing else of the Station Link. -/
theorem miss_link (a : StationId) (s : State) :
    (miss a s).link = (s.setStation a ((s.station a).missed (s.outputEnabled a))).link := by
  refine Runs.link (.trans (.ite (fun _ => .refl _) fun _ => .ite (fun _ => ?_) fun _ => ?_) (claimIfChanged_runs ..))
  · exact (journalise_runs ..).trans (.evolves (.alarm ..))
  · exact journalise_runs ..

/-! ### The commands that end a poll -/

theorem exec_validReply {bytes frame : List Byte} {reply : Reply} (h : s.running) (ho : s.link.outstanding = some q)
    (hb : completeFrame bytes = some frame) (hr : validReply q.address frame = some reply) :
    exec (.replyFrame bytes) s = .next (pollEnded q.address (takeReply q reply (emptyPoll s))) := by
  refine congrArg Host.Outcome.next ((coreEvent_running h _).trans ?_)
  unfold replyReceived
  rw [ho, hb]
  dsimp only
  rw [hr]

theorem exec_badReply {bytes frame : List Byte} (h : s.running) (ho : s.link.outstanding = some q)
    (hb : completeFrame bytes = some frame) (hr : validReply q.address frame = none) :
    exec (.replyFrame bytes) s = .next (pollEnded q.address (miss q.address (emptyPoll s))) := by
  refine congrArg Host.Outcome.next ((coreEvent_running h _).trans ?_)
  unfold replyReceived
  rw [ho, hb]
  dsimp only
  rw [hr]

theorem exec_replyTimeout (h : s.running) (ho : s.link.outstanding = some q) :
    exec .replyTimeout s = .next (pollEnded q.address (miss q.address (emptyPoll s))) := by
  refine congrArg Host.Outcome.next ((coreEvent_running h _).trans ?_)
  unfold replyTimedOut
  rw [ho]

/-- A poll that ends with only its own station's record written: that record, and the next poll. -/
theorem pollEnded_of_link {a : StationId} {r : Station} (h : u.link = ((emptyPoll s).setStation a r).link) :
    NextPolled a ((emptyPoll s).setStation a r) (pollEnded a u) ∧ (pollEnded a u).station a = r := by
  have hnext := (pollEnded_nextPolled a u).of_link h
  exact ⟨hnext, hnext.own.trans (by rw [setStation_station, if_pos rfl])⟩

/-- Settles O36: the reply writes the polled station's record alone, and the poll's end adds the next poll. -/
theorem validReplyReplacesTheStationRecord : Obligations.ValidReplyReplacesTheStationRecord := by
  intro s q bytes frame rep h ho hb hr
  obtain ⟨hnext, hown⟩ := pollEnded_of_link (takeReply_link q rep (emptyPoll s))
  refine ⟨_, exec_validReply h ho hb hr, hown, fun a ha => ?_, hnext.address, hnext.timer, hnext.rounds⟩
  have hother := hnext.others a
  rwa [setStation_station, if_neg ha] at hother

/-- Settles O37: a timeout and a bad reply end the poll with the same miss. -/
theorem missedPollCountsAgainstTheStation : Obligations.MissedPollCountsAgainstTheStation := by
  intro s q h ho
  obtain ⟨hnext, hown⟩ := pollEnded_of_link (miss_link q.address (emptyPoll s))
  have missed := And.intro hown (And.intro hnext.address hnext.timer)
  exact ⟨⟨_, exec_replyTimeout h ho, missed⟩, fun bytes frame hb hr => ⟨_, exec_badReply h ho hb hr, missed⟩⟩

/-! ### Frames and expiries that no poll awaits (R109, R164) -/

theorem replyReceived_noPoll (h : s.link.outstanding = none) (bytes : List Byte) : replyReceived bytes s = s := by
  unfold replyReceived
  rw [h]

theorem replyReceived_incomplete {bytes : List Byte} (h : completeFrame bytes = none) : replyReceived bytes s = s := by
  unfold replyReceived
  rw [h]
  cases s.link.outstanding <;> rfl

theorem replyTimedOut_noPoll (h : s.link.outstanding = none) : replyTimedOut s = s := by
  unfold replyTimedOut
  rw [h]

theorem coreEvent_fixed {f : State → State} (h : f s = s) : coreEvent f s = s := by
  unfold coreEvent
  rw [h, ite_self]

/-- Settles O38: without a poll or a complete frame the event is the identity, and a held core takes no event at all. -/
theorem framesWithoutAPollChangeNothing : Obligations.FramesWithoutAPollChangeNothing := by
  refine ⟨fun s bytes => ⟨fun ho => ⟨?_, ?_⟩, fun hb => ?_⟩, fun s bytes => rfl⟩
  · exact congrArg Host.Outcome.next (coreEvent_fixed (replyReceived_noPoll ho bytes))
  · exact congrArg Host.Outcome.next (coreEvent_fixed (replyTimedOut_noPoll ho))
  · exact congrArg Host.Outcome.next (coreEvent_fixed (replyReceived_incomplete hb))

end Sys2Proof.Machine
end

section
/-! SUPPORT. The sensing: what a conversion writes, what a census close leaves of the Sense Scanner and of the Station Link, the
bus limit check with its entries, and the end of a close that finds no tray waiting (R121 to R127, R146). -/

namespace Sys2Proof.Machine

variable {s u : State}

/-! ### Conversions (R121, R122) -/

theorem exec_conversion (h : s.sup.held = false) (ch : ChannelId) (result : Option Half) :
    exec (.conversion ch result) s = .next (converted ch result s) :=
  congrArg Host.Outcome.next (if_neg (by rw [h]; exact Bool.false_ne_true))

theorem converted_overrange (ch : ChannelId) (s : State) : converted ch none s = { s with sense := { s.sense with
    filling := s.sense.filling.set ch { s.sense.filling[ch] with overranges := countUp s.sense.filling[ch].overranges } } } :=
  rfl

theorem converted_valid {ch : ChannelId} {w : Half} (h : w.toNat ≤ channelMax ch) (s : State) :
    converted ch (some w) s = { s with sense := { s.sense with
      filling := s.sense.filling.set ch (s.sense.filling[ch].add w.toNat)
      last := s.sense.last.set ch (some (w.toNat, s.sense.census)) } } := by
  have hw : (some w).bind (fun w => within 0 (channelMax ch) w.toNat) = some w.toNat := if_pos ⟨Nat.zero_le _, h⟩
  unfold converted
  rw [hw]

/-- Settles O49: a valid result is added to its channel, and an overrange result raises the other count alone. -/
theorem conversionEntersTheFillingBank : Obligations.ConversionEntersTheFillingBank := by
  intro s ch h
  refine ⟨?_, fun w hw => ?_⟩
  · rw [exec_conversion h, converted_overrange]
  · rw [exec_conversion h, converted_valid hw]
    rfl

/-! ### One condition of the bus limit check (R127) -/

/-- The entry of a crossed bus limit, or none when the condition stays as it was. -/
def limitNoted (v : Option Nat) (was now : Bool) (entered ended : Reason) (s : State) : State :=
  if was = now then s else journalise .busLimit none v (some (if now then entered else ended)) s

/-- The alert of a bus limit. -/
def limitRaised (outside : Bool) (s : State) : State := if outside then raise .busLimit s else s

/-- One condition tested against an extreme of BUS, which is absent when BUS had no samples. -/
def limitTested (v : Option Nat) (outside : Nat → Bool) (was : Bool) (entered ended : Reason) (write : Bool → State → State)
    (s : State) : State :=
  match v with
  | some v => busCondition (outside v) was v entered ended write s
  | none => s

/-- What a condition is after its test: a channel without samples leaves it as it was. -/
def limitNow (v : Option Nat) (outside : Nat → Bool) (was : Bool) : Bool := v.elim was outside

/-- A test writes the condition, makes the entry of a crossing, and raises the alert while the value is outside its limit. -/
theorem limitTested_eq {v : Option Nat} {outside : Nat → Bool} {was : Bool} {entered ended : Reason}
    {write : Bool → State → State} (h : write was s = s) : limitTested v outside was entered ended write s =
      limitRaised (v.isSome && limitNow v outside was)
        (limitNoted v was (limitNow v outside was) entered ended (write (limitNow v outside was) s)) := by
  cases v with
  | none => simp [limitTested, limitNow, limitNoted, limitRaised, h]
  | some v =>
    unfold limitTested limitNow busCondition
    dsimp only [Option.elim]
    cases outside v <;> cases was <;> simp [limitNoted, limitRaised, h]

theorem limitNoted_evolves (v : Option Nat) (was now : Bool) (entered ended : Reason) (s : State) :
    Evolves s (limitNoted v was now entered ended s) := .ite (.refl s) (.entry ..)

theorem limitRaised_evolves (outside : Bool) (s : State) : Evolves s (limitRaised outside s) := .ite (.alarm ..) (.refl s)

theorem limitRaised_journal (outside : Bool) (s : State) : (limitRaised outside s).journal = s.journal := by
  cases outside <;> rfl

/-! ### The entries of the crossings (R127, R149) -/

/-- What the journal shows of an entry about a bus limit. -/
def Entry.reading (e : Entry) : Kind × Option Nat × Option Nat := (e.kind, e.value, e.reason)

/-- What the journal shows of a condition that was one value and now is another. -/
def limitCrossed (v : Option Nat) (was now : Bool) (entered ended : Reason) : List (Kind × Option Nat × Option Nat) :=
  if was = now then [] else [(Kind.busLimit, v.map fun n => min n 65535, some (if now then entered else ended).code)]

theorem limitCrossed_length (v : Option Nat) (was now : Bool) (entered ended : Reason) :
    (limitCrossed v was now entered ended).length ≤ 1 := by
  unfold limitCrossed
  split <;> simp

/-- A new entry stands behind the latest ones that were in the ring, when those do not fill it. -/
theorem Journal.push_suffix {j : Journal} {l : List Entry} (e : Entry) (h : l <:+ j.entries) (hl : l.length < Config.journalSize) :
    (l ++ [e]) <:+ (j.push e).entries := by
  refine (List.suffix_append_inj_of_length_eq rfl).mpr ⟨?_, rfl⟩
  split
  · exact h
  · refine List.suffix_of_suffix_length_le h (List.drop_suffix ..) ?_
    rw [List.length_drop]
    omega

/-- A crossing adds its entry to what the journal shows last. -/
theorem limitNoted_entries {l : List (Kind × Option Nat × Option Nat)} (v : Option Nat) (was now : Bool) (entered ended : Reason)
    (h : l <:+ s.journal.entries.map Entry.reading) (hl : l.length < Config.journalSize) :
    (l ++ limitCrossed v was now entered ended) <:+
      (limitNoted v was now entered ended s).journal.entries.map Entry.reading := by
  unfold limitNoted limitCrossed
  split
  · rwa [List.append_nil]
  · obtain ⟨latest, hlatest, rfl⟩ := List.suffix_map_iff.mp h
    rw [List.length_map] at hl
    have hpush := (Journal.push_suffix { seq := s.journal.next, census := s.sense.census, kind := .busLimit, subject := none
                                         value := v.map (min · 65535)
                                         reason := some (if now then entered else ended).code } hlatest hl).map Entry.reading
    rwa [List.map_append] at hpush

/-! ### The bus limit check of a close (R127) -/

/-- The low condition after the check: the published minimum of BUS against warn. -/
def State.busLow (s : State) : Bool := limitNow s.busMin (fun v => decide (v < s.sense.warnLimit)) s.sense.low

/-- The high condition after the check: the published maximum of BUS against over. -/
def State.busHigh (s : State) : Bool := limitNow s.busMax (fun v => decide (s.sense.overLimit < v)) s.sense.high

/-- The rack after the test of the low condition. -/
def lowTested (s : State) : State :=
  limitRaised (s.busMin.isSome && s.busLow) (limitNoted s.busMin s.sense.low s.busLow .low .lowCleared (setLow s.busLow s))

/-- The rack after the test of the high condition. -/
def highTested (s : State) : State :=
  limitRaised (s.busMax.isSome && s.busHigh) (limitNoted s.busMax s.sense.high s.busHigh .high .highCleared (setHigh s.busHigh s))

theorem busLimitClose_eq (s : State) : busLimitClose s = highTested (lowTested s) := by
  have hlow : lowTested s =
      limitTested s.busMin (fun v => decide (v < s.sense.warnLimit)) s.sense.low .low .lowCleared setLow s :=
    (limitTested_eq (write := setLow) rfl).symm
  have hhigh (u : State) : highTested u =
      limitTested u.busMax (fun v => decide (u.sense.overLimit < v)) u.sense.high .high .highCleared setHigh u :=
    (limitTested_eq (write := setHigh) rfl).symm
  rw [hhigh, hlow]
  rfl

theorem lowTested_evolves (s : State) : Evolves (setLow s.busLow s) (lowTested s) :=
  (limitNoted_evolves ..).trans (limitRaised_evolves ..)

theorem highTested_evolves (s : State) : Evolves (setHigh s.busHigh s) (highTested s) :=
  (limitNoted_evolves ..).trans (limitRaised_evolves ..)

theorem lowTested_sense (s : State) : (lowTested s).sense = { s.sense with low := s.busLow } :=
  (lowTested_evolves s).sameUnits.sense

theorem highTested_sense (s : State) : (highTested s).sense = { s.sense with high := s.busHigh } :=
  (highTested_evolves s).sameUnits.sense

/-- The test of the low condition leaves what the test of the high one reads. -/
theorem lowTested_bus (s : State) : (lowTested s).busMax = s.busMax ∧ (lowTested s).busHigh = s.busHigh ∧
    (lowTested s).sense.high = s.sense.high := by
  unfold State.busHigh State.busMax
  rw [lowTested_sense]
  exact ⟨rfl, rfl, rfl⟩

theorem busLimitClose_sense (s : State) :
    (busLimitClose s).sense = { s.sense with low := s.busLow, high := s.busHigh } := by
  obtain ⟨-, hhigh, -⟩ := lowTested_bus s
  rw [busLimitClose_eq, highTested_sense, hhigh, lowTested_sense]

theorem busLimitClose_link (s : State) : (busLimitClose s).link = s.link := by
  rw [busLimitClose_eq]
  exact (highTested_evolves _).sameUnits.link.trans (lowTested_evolves s).sameUnits.link

theorem limitRaised_flags {outside : Bool} (h : outside = true) (s : State) (p : Port) :
    ((limitRaised outside s).port p).flags &&& 0x4000 = 0x4000 := by
  have hmask : Alert.busLimit.mask = 0x4000 := by decide
  rw [limitRaised, if_pos h]
  exact hmask ▸ raise_flags .busLimit s p

/-- While one condition is outside its limit the check leaves BUS_LIMIT set. -/
theorem busLimitClose_flags (h : (s.busMin.isSome && s.busLow) = true ∨ (s.busMax.isSome && s.busHigh) = true) (p : Port) :
    ((busLimitClose s).port p).flags &&& 0x4000 = 0x4000 := by
  obtain ⟨hmax, hhigh, -⟩ := lowTested_bus s
  rw [busLimitClose_eq]
  rcases h with h | h
  · have hflag : ((lowTested s).port p).flags &&& 0x4000 = 0x4000 := limitRaised_flags h ..
    exact (highTested_evolves _).flags p (by cases p <;> exact hflag)
  · exact limitRaised_flags (by rw [hmax, hhigh]; exact h) ..

/-- The check's own entries are the last of the journal, that of the low condition first. -/
theorem busLimitClose_entries (s : State) :
    (limitCrossed s.busMin s.sense.low s.busLow .low .lowCleared ++
      limitCrossed s.busMax s.sense.high s.busHigh .high .highCleared) <:+
        (busLimitClose s).journal.entries.map Entry.reading := by
  have hlow : limitCrossed s.busMin s.sense.low s.busLow .low .lowCleared <:+
      (lowTested s).journal.entries.map Entry.reading := by
    rw [lowTested, limitRaised_journal]
    exact limitNoted_entries (l := []) _ _ _ _ _ List.nil_suffix (by decide)
  have hroom : (limitCrossed s.busMin s.sense.low s.busLow .low .lowCleared).length < Config.journalSize :=
    Nat.lt_of_le_of_lt (limitCrossed_length ..) (by decide)
  obtain ⟨hmax, hhigh, hwas⟩ := lowTested_bus s
  rw [busLimitClose_eq, highTested, limitRaised_journal, hmax, hhigh, hwas]
  exact limitNoted_entries _ _ _ _ _ hlow hroom

/-! ### What a close leaves of the Sense Scanner and of the Station Link (R124, R125, R126) -/

theorem Runs.sense (h : Runs leakAlone s u) : u.sense = s.sense := h.same (x := .sense) rfl

theorem judgeZones_runs (judged : Vector (Option (ZoneClass × LeakSource)) 8) (s : State) :
    Runs leakAlone s (allZones.foldl (judgeZone judged) s) := .foldl (judgeZone_runs rfl judged) _ s

/-- The Leak Monitor writes the classifications of the published bank, and nothing else of the sensing. -/
theorem leakClose_sense (s : State) : (leakClose s).sense = { s.sense with
    published := { s.sense.published with classes := (leakJudged s).map (Option.map Prod.fst) } } := by
  rw [leakClose_eq, (judgeZones_runs ..).sense]
  unfold leakClassed
  rw [(leakRead_evolves s).sameUnits.sense]

theorem leakClose_link (s : State) : (leakClose s).link = s.link := by
  rw [leakClose_eq, (judgeZones_runs ..).link]
  exact (leakRead_evolves s).sameUnits.link

/-- The rack as the bus limit check of a close finds it. -/
def closeJudged (s : State) : State := holdupClose (leakClose (publishBank s))

theorem censusClosed_eq (s : State) : censusClosed s = (finish (busLimitClose (closeJudged s))).mapPorts PortRec.releaseAll := rfl

theorem closeJudged_sense (s : State) : (closeJudged s).sense = { (publishBank s).sense with
    published := { (publishBank s).sense.published with
      classes := (leakJudged (publishBank s)).map (Option.map Prod.fst) } } :=
  (holdupClose_evolves _).sameUnits.sense.trans (leakClose_sense _)

theorem closeJudged_link (s : State) : (closeJudged s).link = (publishBank s).link :=
  (holdupClose_evolves _).sameUnits.link.trans (leakClose_link _)

/-- The check reads the bank just published and the limits and conditions as the close found them. -/
theorem closeJudged_bus (s : State) :
    (closeJudged s).busMin = s.sense.filling[(0 : ChannelId)].minimum ∧
    (closeJudged s).busMax = s.sense.filling[(0 : ChannelId)].maximum ∧
    (closeJudged s).busLow =
      s.sense.filling[(0 : ChannelId)].minimum.elim s.sense.low (fun v => decide (v < s.sense.warnLimit)) ∧
    (closeJudged s).busHigh =
      s.sense.filling[(0 : ChannelId)].maximum.elim s.sense.high (fun v => decide (s.sense.overLimit < v)) ∧
    (closeJudged s).sense.low = s.sense.low ∧ (closeJudged s).sense.high = s.sense.high := by
  unfold State.busLow State.busHigh State.busMin State.busMax
  rw [closeJudged_sense]
  exact ⟨rfl, rfl, rfl, rfl, rfl, rfl⟩

/-- After a close the sensing is as the Census unit left it, but for the classifications and the two bus conditions. -/
theorem censusClosed_sense (s : State) : ∃ classes, (censusClosed s).sense = { (publishBank s).sense with
    published := { (publishBank s).sense.published with classes := classes }
    low := (closeJudged s).busLow, high := (closeJudged s).busHigh } :=
  ⟨_, by rw [censusClosed_eq, mapPorts_sense, (finish_evolves _).sameUnits.sense, busLimitClose_sense, closeJudged_sense]⟩

/-- A close clears every replied flag (R125). -/
theorem censusClosed_replied (s : State) (a : StationId) : ((censusClosed s).station a).replied = false := by
  have hlink : (censusClosed s).link = (publishBank s).link := by
    rw [censusClosed_eq, mapPorts_link, (finish_evolves _).sameUnits.link, busLimitClose_link, closeJudged_link]
  rw [station_congr hlink]
  simp [State.station, publishBank]

theorem publishBank_filling (s : State) (ch : ChannelId) : (publishBank s).sense.filling[ch] = Channel.empty := by
  simp [publishBank]

/-! ### The flags after a close (R146) -/

/-- After the release no flag is set and unreleased. -/
theorem releaseAll_released (r : PortRec) : r.releaseAll.flags &&& ~~~r.releaseAll.released = 0 := by
  show r.flags &&& ~~~(r.released ||| r.flags) = 0
  refine BitVec.eq_of_getElem_eq fun i hi => ?_
  rw [BitVec.getElem_and, BitVec.getElem_not, BitVec.getElem_or]
  cases r.flags[i] <;> simp

theorem censusClosed_port (s : State) (p : Port) :
    (censusClosed s).port p = ((finish (busLimitClose (closeJudged s))).port p).releaseAll := mapPorts_port ..

theorem censusClosed_released (s : State) (p : Port) :
    ((censusClosed s).port p).flags &&& ~~~((censusClosed s).port p).released = 0 := by
  rw [censusClosed_port]
  exact releaseAll_released _

/-- A close that leaves BUS outside one of its limits leaves BUS_LIMIT set (R127). -/
theorem censusClosed_busLimit (h : ((closeJudged s).busMin.isSome = true ∧ (closeJudged s).busLow = true) ∨
    ((closeJudged s).busMax.isSome = true ∧ (closeJudged s).busHigh = true)) (p : Port) :
    ((censusClosed s).port p).flags &&& 0x4000 = 0x4000 := by
  rw [censusClosed_port]
  refine (finish_evolves _).flags p (busLimitClose_flags ?_ p)
  rwa [Bool.and_eq_true, Bool.and_eq_true]

/-! ### A rack in NORMAL with no tray waiting -/

/-- NORMAL, with the Start Queue and the Park List empty. -/
structure State.vacant (s : State) : Prop where
  normal : s.isNormal = true
  queue : s.queue = []
  park : s.park = []

theorem State.vacant.beside (h : s.vacant) (hh : u.hup = s.hup) (hq : u.queue = s.queue) (hp : u.park = s.park) : u.vacant :=
  ⟨by unfold State.isNormal; rw [hh]; exact h.normal, hq.trans h.queue, hp.trans h.park⟩

theorem State.vacant.ite {c : Prop} [Decidable c] {a b : State} (ha : a.vacant) (hb : b.vacant) :
    (if c then a else b).vacant := by split <;> assumption

theorem State.vacant.foldl {α : Type} {f : State → α → State} (hf : ∀ s a, s.vacant → (f s a).vacant) (l : List α)
    (h : s.vacant) : (l.foldl f s).vacant := List.foldlRecOn l f h fun _ hv a _ => hf _ a hv

theorem journalise_vacant (k : Kind) (a : Option Subject) (v : Option Nat) (r : Option Reason) (h : s.vacant) :
    (journalise k a v r s).vacant := h.beside rfl rfl rfl

theorem raise_vacant (c : Alert) (h : s.vacant) : (raise c s).vacant := h.beside rfl rfl rfl

theorem leaveCollection_vacant (t : TrayId) (h : s.vacant) : (leaveCollection t s).vacant := by
  unfold leaveCollection
  split
  · have hq : s.queue.filter (· != t) = [] := by rw [h.queue]; rfl
    refine .ite ?_ ?_ <;> exact ⟨h.normal, hq, h.park⟩
  · exact ⟨h.normal, h.queue, by rw [h.park]; rfl⟩
  · exact h.beside rfl rfl rfl
  · exact h

theorem isolate_vacant (z : ZoneId) (t : TrayId) (h : s.vacant) : (isolate z t s).vacant := by
  have hmove : (moveBare t .isolated 0 none s).vacant :=
    moveBare_keeps t .isolated 0 none (fun _ hv => journalise_vacant _ _ _ _ hv)
      (fun _ hv _ => (leaveCollection_vacant t hv).beside rfl rfl rfl) h
  exact hmove.beside rfl rfl rfl

theorem pickLeakZone_vacant (e : Option ZoneId) (h : s.vacant) : (pickLeakZone e s).2.vacant := by
  unfold pickLeakZone
  split
  · exact h
  · split
    · exact h
    · exact h
    · exact h.beside rfl rfl rfl

/-! ### The reads of a close -/

theorem lockOne_vacant (e : Option ZoneId) (t : TrayId) (h : s.vacant) : (lockOne e t s).vacant := by
  have hlock : (sortPark (s.setRecord t { s.tray t with locked := true, frozen := (s.tray t).commitment })).vacant :=
    ⟨h.normal, h.queue, by rw [sortPark_park, setRecord_park, h.park]; rfl⟩
  have hpick := pickLeakZone_vacant e hlock
  unfold lockOne
  refine raise_vacant _ (journalise_vacant _ _ _ _ ?_)
  rw [trapFailure_eq]
  refine State.vacant.beside (s := ite _ _ _) (.ite ?_ hlock) rfl rfl rfl
  generalize pickLeakZone e _ = pick at hpick ⊢
  obtain ⟨_ | z, v⟩ := pick
  · exact hpick
  · exact isolate_vacant z t hpick

theorem testMembers_vacant (e : Option ZoneId) (member : TrayState → Bool) (h : s.vacant) : (testMembers e member s).vacant :=
  .foldl (fun _ t hv => .ite (.ite (lockOne_vacant e t hv) hv) hv) _ h

theorem checkReadIn_vacant (e : Option ZoneId) (t : TrayId) (h : s.vacant) : (checkReadIn e t s).vacant := by
  have hlock := lockOne_vacant e t h
  exact .ite (.ite (testMembers_vacant e _ hlock) (.ite (testMembers_vacant e _ hlock) hlock)) h

theorem readMark_vacant (marks : Vector Bool 32) (s : State) (t : TrayId) (h : s.vacant) : (readMark marks s t).vacant := by
  have hread : (checkRead t s).vacant := checkReadIn_vacant none t h
  unfold readMark
  exact .ite (.ite (raise_vacant _ (journalise_vacant _ _ _ _ hread))
    (.ite (raise_vacant _ (journalise_vacant _ _ _ _ hread)) hread)) h

theorem isolateIfInZone_vacant (z : ZoneId) (s : State) (t : TrayId) (h : s.vacant) : (isolateIfInZone z s t).vacant := by
  have hread := checkReadIn_vacant (some z) t h
  exact .ite (isolate_vacant z t hread) hread

/-! ### The zone transitions of a close -/

theorem enterLeak_vacant (z : ZoneId) (h : s.vacant) : (enterLeak z s).1.vacant := by
  rw [enterLeak_fst]
  exact .foldl (isolateIfInZone_vacant z) _ (h.beside rfl rfl rfl)

theorem countWet_vacant (z : ZoneId) (source : LeakSource) (h : s.vacant) : (countWet z source s).vacant := by
  unfold countWet
  dsimp only
  generalize (if (s.zone z).state == .opened then 1 else (s.zone z).wetCount + 1) = n
  have hcount : (s.setZone z { s.zone z with wetCount := n }).vacant := h.beside rfl rfl rfl
  exact .ite (raise_vacant _ (journalise_vacant _ _ _ _ (enterLeak_vacant z hcount)))
    (.ite hcount (hcount.beside rfl rfl rfl))

theorem becomeOpen_vacant (z : ZoneId) (h : s.vacant) : (becomeOpen z s).vacant :=
  .ite (h.beside rfl rfl rfl) (h.beside rfl rfl rfl)

theorem holdLifted_vacant (t : TrayId) (h : s.vacant) : (holdLifted t s).vacant :=
  .ite (h.beside rfl rfl rfl) (h.beside rfl rfl rfl)

theorem becomeDry_vacant (z : ZoneId) (h : s.vacant) : (becomeDry z s).vacant :=
  .ite (h.beside rfl rfl rfl) (.foldl (fun _ t hv => .ite (holdLifted_vacant t hv) hv) _ (h.beside rfl rfl rfl))

theorem zoneTransition_vacant (cls : ZoneClass) (source : LeakSource) (z : ZoneId) (h : s.vacant) :
    (zoneTransition cls source z s).vacant := by
  have hclass : (s.setZone z { s.zone z with lastClass := some cls }).vacant := h.beside rfl rfl rfl
  refine .ite hclass ?_
  cases cls with
  | wet => exact countWet_vacant z source hclass
  | opened => exact .ite (countWet_vacant z _ hclass) (becomeOpen_vacant z hclass)
  | dry => exact becomeDry_vacant z hclass

theorem judgeZone_vacant (judged : Vector (Option (ZoneClass × LeakSource)) 8) (s : State) (z : ZoneId) (h : s.vacant) :
    (judgeZone judged s z).vacant := by
  unfold judgeZone
  split
  · exact zoneTransition_vacant _ _ z h
  · exact h

/-- The Leak Monitor locks and isolates trays, and takes none into the Start Queue or the Park List. -/
theorem leakClose_vacant (h : s.vacant) : (leakClose s).vacant := by
  have hread : (leakRead s).vacant := .foldl (readMark_vacant _) _ (h.beside rfl rfl rfl)
  rw [leakClose_eq]
  exact .foldl (judgeZone_vacant _) _ (hread.beside rfl rfl rfl)

/-- In NORMAL the Holdup Controller tests nothing at a close. -/
theorem holdupClose_normal (h : s.isNormal = true) : holdupClose s = s := by
  have hstate : s.hup.state = .normal := by simpa [State.isNormal] using h
  simp [holdupClose, State.onBattery, hstate]

theorem closeJudged_vacant (h : s.vacant) : (closeJudged s).vacant := by
  have hleak : (leakClose (publishBank s)).vacant := leakClose_vacant (h.beside rfl rfl rfl)
  rw [closeJudged, holdupClose_normal hleak.normal]
  exact hleak

theorem limitRaised_vacant (outside : Bool) (h : s.vacant) : (limitRaised outside s).vacant := .ite (raise_vacant _ h) h

theorem limitNoted_vacant (v : Option Nat) (was now : Bool) (entered ended : Reason) (h : s.vacant) :
    (limitNoted v was now entered ended s).vacant := .ite h (journalise_vacant _ _ _ _ h)

theorem busLimitClose_vacant (h : s.vacant) : (busLimitClose s).vacant := by
  have hlow : (lowTested s).vacant := limitRaised_vacant _ (limitNoted_vacant _ _ _ _ _ (h.beside rfl rfl rfl))
  rw [busLimitClose_eq]
  exact limitRaised_vacant _ (limitNoted_vacant _ _ _ _ _ (hlow.beside rfl rfl rfl))

/-! ### The end of an event that finds no tray waiting -/

theorem finishRounds_vacant (n : Nat) (h : s.vacant) : ∃ a, finishRounds n s = s.setAgenda a := by
  induction n generalizing s with
  | zero => exact ⟨s.agenda, rfl⟩
  | succ n ih =>
    obtain ⟨a, ha⟩ := endClaim_idle (.inr (.inr h.park)) (warmRegain_normal h.normal)
    have ho := offerStart_disallowed (s := s.setAgenda a) (startAllowed_empty h.queue)
    obtain ⟨b, hb⟩ := ih (s := s.setAgenda { a with opportunity := false }) (h.beside rfl rfl rfl)
    unfold finishRounds
    simp only [ha, ho, setAgenda_setAgenda, setAgenda_agenda, hb]
    split
    · split
      · exact ⟨b, rfl⟩
      · exact ⟨_, rfl⟩
    · exact ⟨a, rfl⟩

/-- With no tray to admit or to start the end of an event only clears what is owed. -/
theorem finish_vacant (h : s.vacant) : finish s = s.setAgenda .none := by
  obtain ⟨a, ha⟩ := finishRounds_vacant 33 h
  rw [finish, ha, setAgenda_setAgenda]

/-- With no tray waiting the entries of the bus limit check are the last of the close (log entry 25). -/
theorem censusClosed_entries (h : s.vacant) :
    (limitCrossed (closeJudged s).busMin (closeJudged s).sense.low (closeJudged s).busLow .low .lowCleared ++
      limitCrossed (closeJudged s).busMax (closeJudged s).sense.high (closeJudged s).busHigh .high .highCleared) <:+
        (censusClosed s).journal.entries.map Entry.reading := by
  rw [censusClosed_eq, mapPorts_journal, finish_vacant (busLimitClose_vacant (closeJudged_vacant h)), setAgenda_journal]
  exact busLimitClose_entries _

/-! ### CENSUS_CLOSE -/

theorem exec_censusClose_idle (h : s.running) (ht : s.sense.timer = none) : exec .censusClose s = .next s :=
  congrArg Host.Outcome.next ((coreEvent_running h _).trans (if_pos (by rw [ht]; rfl)))

/-- Settles O50: the Leak Monitor adds only the classifications to the bank that the Census unit publishes, the bus limit check
writes only its two conditions, and a rack in NORMAL with no tray waiting makes no entry after it. -/
theorem censusClosePublishesTheBank : Obligations.CensusClosePublishesTheBank := by
  intro s h
  refine ⟨exec_censusClose_idle h, fun ht => ⟨_, exec_censusClose h ht, ?_⟩⟩
  obtain ⟨hmin, hmax, hlow, hhigh, hwasLow, hwasHigh⟩ := closeJudged_bus s
  obtain ⟨classes, hsense⟩ := censusClosed_sense s
  have hreplied := censusClosed_replied s
  have hreleased := censusClosed_released s
  have hflags := censusClosed_busLimit (s := s)
  have hentries := censusClosed_entries (s := s)
  rw [hlow, hhigh] at hsense
  rw [hmin, hmax, hlow, hhigh] at hflags
  rw [hmin, hmax, hlow, hhigh, hwasLow, hwasHigh] at hentries
  generalize censusClosed s = u at hsense hreplied hreleased hflags hentries ⊢
  rw [hsense]
  exact ⟨rfl, rfl, rfl, rfl, publishBank_filling s, rfl, rfl, hreplied, hreleased, rfl, rfl, fun p ho => hflags ho p,
    fun hn hq hp => hentries ⟨hn, hq, hp⟩⟩

end Sys2Proof.Machine
end

section
/-! SUPPORT. What a port does with a write: the request that a command is, its bytes and their checks, and the refusal while
the port is EXECUTING (R131, R132, R134, R163). -/

namespace Sys2Proof.Machine

variable {i : Instr} {r : Request} {s : State} {p : Port}

/-! ### A command as a request -/

/-- A command with a request message runs as that message's taking at its port, for an effect of its own. -/
theorem exec_portTake (h : requestOf i = some r) :
    ∃ body, ∀ s, exec i s = .next (portTake r.port r.tag (needsLease i) body s) := by
  cases i <;> cases h <;> exact ⟨_, fun _ => rfl⟩

/-- Settles O6: a command is its request's taking, which stops at the lease. -/
theorem noLeaseNoChange : Obligations.NoLeaseNoChange := by
  intro i r s h hn ht hl
  obtain ⟨body, hexec⟩ := exec_portTake h
  rw [hexec, hn, portTake_noLease ht hl]

/-! ### A write to an EXECUTING port -/

/-- The record that a refused write leaves (R132, R146). -/
theorem setFlag_portOverrun (r : PortRec) : r.setFlag .portOverrun =
    { r with flags := r.flags ||| 0x8000, released := r.released ||| (0x8000 &&& r.urgent) } := rfl

theorem rawWrite_executing (h : s.sup.held = false) (he : (s.port p).state = .executing) (bytes : List Byte) :
    rawWrite p bytes s = raiseOverrun p s := by
  simp [rawWrite, h, he]

theorem refusedWrite_executing (h : s.sup.held = false) (he : (s.port p).state = .executing) :
    refusedWrite p s = raiseOverrun p s := by
  simp [refusedWrite, h, he]

/-- Settles O5: each of the three presentations of the write ends in PORT_OVERRUN. -/
theorem executingPortRefusesWrites : Obligations.ExecutingPortRefusesWrites := by
  intro s p h he
  rw [← setFlag_portOverrun]
  refine ⟨congrArg Host.Outcome.next (refusedWrite_executing h he),
    fun bytes => congrArg Host.Outcome.next (rawWrite_executing h he bytes), fun i r hr hp => ?_⟩
  subst hp
  obtain ⟨body, hexec⟩ := exec_portTake hr
  rw [hexec, portTake_executing h he]
  rfl

/-! ### The checks of a taken write -/

/-- A write that fails the frame check or its command's length, at a port that takes requests. -/
theorem exec_badFrame (h : s.takes p) {bytes : List Byte} (hb : bytes ≠ []) (hp : parseRequest p bytes = .badFrame) :
    exec (.unknownRequest p bytes) s = .next (respond p (bytes.getD 1 0) ⟨.badFrame, []⟩ s) := by
  obtain ⟨⟨hheld, -⟩, hstate⟩ := h
  refine congrArg Host.Outcome.next ?_
  simp [rawWrite, hheld, hstate, hb, hp]

/-- A write whose command byte names no command, at a port that takes requests. -/
theorem exec_unknown (h : s.takes p) {bytes : List Byte} (hb : bytes ≠ []) (hp : parseRequest p bytes = .unknown) :
    exec (.unknownRequest p bytes) s = .next (respond p (bytes.getD 1 0) ⟨.unknown, []⟩ s) := by
  obtain ⟨⟨hheld, -⟩, hstate⟩ := h
  refine congrArg Host.Outcome.next ?_
  simp [rawWrite, hheld, hstate, hb, hp]

theorem frameGood_iff (bytes : List Byte) : frameGood bytes = true ↔
    4 ≤ bytes.length ∧ bytes.length ≤ 28 ∧ bytes.length = (bytes.getD 2 0).toNat + 4 ∧
      crc8 bytes.dropLast = bytes.getLastD 0 := by
  simp only [frameGood, Bool.and_eq_true, decide_eq_true_eq, beq_iff_eq, and_assoc]

theorem parseRequest_badFrame {bytes : List Byte} (hf : ¬frameGood bytes = true) (p : Port) :
    parseRequest p bytes = .badFrame := if_neg hf

theorem parseRequest_unknown {bytes : List Byte} (hf : frameGood bytes = true)
    (hc : payloadLength (bytes.getD 0 0) = none) (p : Port) : parseRequest p bytes = .unknown := by
  rw [parseRequest, if_pos hf, hc]

theorem parseRequest_badLength {bytes : List Byte} {n : Nat} (hf : frameGood bytes = true)
    (hc : payloadLength (bytes.getD 0 0) = some n) (hn : n ≠ (bytes.getD 2 0).toNat) (p : Port) :
    parseRequest p bytes = .badFrame := by
  rw [parseRequest, if_pos hf, hc]
  exact if_neg hn

theorem parseRequest_command {bytes : List Byte} (hf : frameGood bytes = true)
    (hc : payloadLength (bytes.getD 0 0) = some (bytes.getD 2 0).toNat)
    (hi : commandOf p (bytes.getD 0 0) (bytes.getD 1 0) (bytes.drop 3).dropLast = some i) :
    parseRequest p bytes = .command i := by
  rw [parseRequest, if_pos hf, hc]
  simp only [if_true, hi]

/-- Settles O7: the three checks in their order. -/
theorem badWritesAreRefused : Obligations.BadWritesAreRefused := by
  intro s p bytes h hb
  rw [← frameGood_iff]
  exact ⟨fun hf => exec_badFrame h hb (parseRequest_badFrame hf p),
    fun hf hc => exec_unknown h hb (parseRequest_unknown hf hc p),
    fun n hf hc hn => exec_badFrame h hb (parseRequest_badLength hf hc hn p)⟩

/-! ### The bytes of a request -/

theorem request_bytes (r : Request) : r.bytes =
    r.code :: r.tag :: byte r.payload.length ::
      (r.payload ++ [crc8 ([r.code, r.tag, byte r.payload.length] ++ r.payload)]) := rfl

/-- The length byte of a payload that R134 allows. -/
theorem byte_length_toNat (h : r.payload.length ≤ 24) : (byte r.payload.length).toNat = r.payload.length := by
  rw [byte, BitVec.toNat_ofNat]
  omega

/-- The bytes of a request whose payload is no longer than R134 allows pass the frame check. -/
theorem frameGood_bytes (h : r.payload.length ≤ 24) : frameGood r.bytes = true := by
  have hlen : r.bytes.length = r.payload.length + 4 := by simp [request_bytes]
  have hcrc : crc8 r.bytes.dropLast = r.bytes.getLastD 0 := by
    simp only [Request.bytes, List.dropLast_concat, List.getLastD_concat]
  refine (frameGood_iff _).mpr ⟨by omega, by omega, ?_, hcrc⟩
  rw [hlen]
  exact congrArg (· + 4) (byte_length_toNat h).symm

/-- The bytes of a request of its command's length are read back as the command that its code and payload name. -/
theorem parseRequest_bytes (hl : payloadLength r.code = some r.payload.length) (h : r.payload.length ≤ 24)
    (hi : commandOf r.port r.code r.tag r.payload = some i) : parseRequest r.port r.bytes = .command i := by
  refine parseRequest_command (frameGood_bytes h) (hl.trans (congrArg some (byte_length_toNat h).symm)) ?_
  have hpayload : (r.bytes.drop 3).dropLast = r.payload := List.dropLast_concat ..
  rw [hpayload]
  exact hi

/-! ### The parameters of a request -/

/-- A two-byte field is read back from its two bytes (R162). -/
theorem half_extract (w : Half) : half (w.extractLsb' 0 8) (w.extractLsb' 8 8) = w :=
  (BitVec.extractLsb'_append_extractLsb'_eq_extractLsb' (start₂ := 8) (start₁ := 0) (len₁ := 8) rfl).trans
    BitVec.extractLsb'_eq_self

theorem trayFieldsOf_bytes (f : TrayFields) : trayFieldsOf (trayFieldBytes f) = some f := by
  simp [trayFieldsOf, trayFieldBytes, bytes2, half_extract]

theorem limitFieldsOf_bytes (f : LimitFields) : limitFieldsOf (limitFieldBytes f) = some f := by
  simp [limitFieldsOf, limitFieldBytes, bytes2, half_extract]

theorem timingFieldsOf_bytes (f : TimingFields) : timingFieldsOf (timingFieldBytes f) = some f := by
  simp [timingFieldsOf, timingFieldBytes, bytes2, half_extract]

/-- The code and the payload of a command's request name that command: by the round trip of its two-byte fields where it has
any, and else as they stand. -/
theorem commandOf_request (h : requestOf i = some r) : commandOf r.port r.code r.tag r.payload = some i := by
  cases i with
  | setAlerts p tag e u =>
    cases h
    exact congrArg some (congrArg₂ (Instr.setAlerts p tag) (half_extract e) (half_extract u))
  | ackAlerts p tag m => cases h; exact congrArg (some ∘ Instr.ackAlerts p tag) (half_extract m)
  | claimLease p tag n => cases h; exact congrArg (some ∘ Instr.claimLease p tag) (half_extract n)
  | grant p tag t a rev park =>
    cases h
    exact congrArg (fun a => some (Instr.grant p tag t a rev park)) (half_extract a)
  | setTray p tag t rev f => cases h; exact congrArg (Option.map (Instr.setTray p tag t rev)) (trayFieldsOf_bytes f)
  | setLimits p tag f => cases h; exact congrArg (Option.map (Instr.setLimits p tag)) (limitFieldsOf_bytes f)
  | setTiming p tag f => cases h; exact congrArg (Option.map (Instr.setTiming p tag)) (timingFieldsOf_bytes f)
  | _ => cases h <;> rfl

/-- What the family Rows says of each command holds of every command. -/
theorem payloadLength_request (i : Instr) : Laws.Rows.Statement i := by
  cases i with
  | readStatus => apply Laws.Rows.readStatus
  | readTray => apply Laws.Rows.readTray
  | readStation => apply Laws.Rows.readStation
  | readZone => apply Laws.Rows.readZone
  | readPlan => apply Laws.Rows.readPlan
  | readSnapshot => apply Laws.Rows.readSnapshot
  | readJournal => apply Laws.Rows.readJournal
  | readAlerts => apply Laws.Rows.readAlerts
  | setAlerts => apply Laws.Rows.setAlerts
  | ackAlerts => apply Laws.Rows.ackAlerts
  | claimLease => apply Laws.Rows.claimLease
  | renewLease => apply Laws.Rows.renewLease
  | dropLease => apply Laws.Rows.dropLease
  | grant => apply Laws.Rows.grant
  | release => apply Laws.Rows.release
  | setTray => apply Laws.Rows.setTray
  | clearFault => apply Laws.Rows.clearFault
  | planOpen => apply Laws.Rows.planOpen
  | planPoint => apply Laws.Rows.planPoint
  | planPut => apply Laws.Rows.planPut
  | planLength => apply Laws.Rows.planLength
  | planCommit => apply Laws.Rows.planCommit
  | planAbort => apply Laws.Rows.planAbort
  | setShelf => apply Laws.Rows.setShelf
  | setLimits => apply Laws.Rows.setLimits
  | setTiming => apply Laws.Rows.setTiming
  | startRack => apply Laws.Rows.startRack
  | clearZone => apply Laws.Rows.clearZone
  | clearTrap => apply Laws.Rows.clearTrap
  | saveConfig => apply Laws.Rows.saveConfig
  | _ => intro r h; cases h

/-- Settles O8: the frame of the bytes, the length of the payload, and the command that code and payload name. -/
theorem requestBytesSpellTheRequest : Obligations.RequestBytesSpellTheRequest := by
  intro i r h
  obtain ⟨hl, hle⟩ := payloadLength_request i r h
  exact parseRequest_bytes hl hle (commandOf_request h)

end Sys2Proof.Machine
end

section
/-! SUPPORT. The alert requests, SAVE_CONFIG with the completion of its write, and the lapse of a lease (R136, R138, R148,
R158). -/

namespace Sys2Proof.Machine

variable {s : State} {p : Port}

/-! ### READ_ALERTS, SET_ALERTS and ACK_ALERTS -/

/-- A request that replaces the port's alert record answers with the record after it. -/
theorem changeAlerts_taken (h : s.takes p) (tag : Byte) (f : PortRec → PortRec) :
    (.next (takeRequest p tag false (changeAlerts p f) s) : Host.Outcome State Fault Refusal) =
      .next (respond p tag ⟨.ok, (f (s.port p)).alertPayload⟩ (s.setPort p (f (s.port p)))) :=
  next_free h tag rfl

/-- Settles O13: a read of the port's record, and two replacements of it. -/
theorem alertCommandsChangeOneRecord : Obligations.AlertCommandsChangeOneRecord := fun _ _ tag h =>
  ⟨next_free h tag rfl, fun enable urgent => changeAlerts_taken h tag (PortRec.setMasks enable urgent),
    fun mask => changeAlerts_taken h tag (PortRec.acknowledge mask)⟩

/-! ### SAVE_CONFIG and STORE_WRITE_COMPLETE -/

theorem saveConfig_busy (h : s.leased p) (hw : s.store.writing.isSome = true) (tag : Byte) :
    exec (.saveConfig p tag) s = .next (respond p tag ⟨.storeBusy, []⟩ s) :=
  congrArg Host.Outcome.next ((portTake_leased h ..).trans (if_pos hw))

/-- The write of an image begins: the state that SAVE_CONFIG leaves when no part newly fails its check. -/
theorem saveTaken_passes (ho : s.agenda = Agenda.none) (hc : s.codesPass) (p : Port) (tag : Byte) :
    saveTaken p tag s = State.setPort p { s.port p with state := .executing, response := none, execTag := some tag }
      { s with store :=
        { image := none, writing := some (StoreWrite.mk p s.capture s.sense.census s.failingCount) } } := by
  rw [saveTaken, readAll_passes hc, finish_none ho]
  cases p <;> rfl

theorem saveConfig_begins (h : s.leased p) (hw : s.store.writing = none) (tag : Byte) :
    exec (.saveConfig p tag) s = .next (saveTaken p tag s) :=
  congrArg Host.Outcome.next ((portTake_leased h ..).trans (if_neg (by simp [hw])))

theorem storeWritten_idle (h : s.store.writing = none) : storeWritten s = s := by
  rw [storeWritten, h]

theorem storeWritten_writing {w : StoreWrite} (h : s.store.writing = some w) : storeWritten s =
    respond w.port ((s.port w.port).execTag.getD 0) ⟨.ok, bytes2 w.census ++ [byte w.failing]⟩
      { s with store := { image := some w.image, writing := none } } := by
  rw [storeWritten, h]

/-- Settles O35: the busy store, the beginning of a write, and the two ends of STORE_WRITE_COMPLETE. -/
theorem saveConfigAndItsCompletion : Obligations.SaveConfigAndItsCompletion := by
  refine ⟨fun s p tag h => ⟨fun hw => saveConfig_busy h hw tag, fun hw hc => ?_⟩,
    fun s => ⟨fun hw => congrArg Host.Outcome.next (storeWritten_idle hw),
      fun w hw => congrArg Host.Outcome.next (storeWritten_writing hw)⟩⟩
  have ⟨⟨⟨_, howed⟩, _⟩, _⟩ := h
  rw [saveConfig_begins h hw, saveTaken_passes howed hc]

/-! ### LEASE_LAPSED -/

theorem leaseLapse_none (h : (s.port p).lease = none) : leaseLapse p s = s := by
  simp [leaseLapse, h]

theorem leaseLapse_live (hh : s.sup.held = false) (hl : (s.port p).lease.isSome = true) : leaseLapse p s =
    discardStaging p .leaseEnded
      (raise .leaseLapsed (journalise .leaseLapsed (some (.port p)) none none (setLease p none s))) :=
  if_neg (by simp [hh, Option.isSome_iff_ne_none.mp hl])

/-- Settles O16: the lapse is the lease's end, its entry and its alert, and then the release of the staging. -/
theorem leaseLapseEndsTheLease : Obligations.LeaseLapseEndsTheLease := by
  refine fun s p hh => ⟨fun hn => congrArg Host.Outcome.next (leaseLapse_none hn),
    fun hl => congrArg Host.Outcome.next ((leaseLapse_live hh hl).trans ?_)⟩
  rw [discardStaging_eq, raise_seq, journalise_seq, setLease_seq]
  rfl

end Sys2Proof.Machine
end

section
/-! SUPPORT. The alert line, the journal's ring, and the cursor that READ_JOURNAL moves (R147, R149 to R151). -/

namespace Sys2Proof.Machine

variable {s : State} {p : Port}

/-! ### The alert line -/

/-- The sixteen alert causes fill an alert mask: every bit is some cause's. -/
theorem Alert.bit_ofNat : ∀ i : Fin 16, (Alert.ofNat i.val).bit = i.val := by decide

/-- A mask is not empty when some alert cause has its bit in it. -/
theorem mask_ne_zero_iff (m : Half) : m ≠ 0 ↔ ∃ c : Alert, m.getLsbD c.bit = true := by
  constructor
  · intro hm
    obtain ⟨i, hi⟩ := not_forall.mp (mt BitVec.eq_of_getLsbD_eq_iff.mpr hm)
    obtain ⟨hlt, hbit⟩ := Classical.not_imp.mp hi
    exact ⟨Alert.ofNat i, by simpa [Alert.bit_ofNat ⟨i, hlt⟩] using hbit⟩
  · rintro ⟨c, hc⟩ rfl
    simp at hc

/-- Settles O14: the line is the common part of the three masks, which is not empty when some cause has its bit in each. -/
theorem alertLineNeedsFlagReleaseAndEnable : Obligations.AlertLineNeedsFlagReleaseAndEnable := by
  intro r
  simp only [PortRec.lineAsserted, bne_iff_ne, mask_ne_zero_iff, BitVec.getLsbD_and, Bool.and_eq_true, and_assoc]

/-! ### READ_JOURNAL -/

/-- No port has more unread entries than the ring holds. -/
theorem State.journalBounded.unread_le (h : s.journalBounded) (p : Port) : (s.port p).unread ≤ s.journal.entries.length := by
  obtain ⟨_, ha, hb⟩ := h
  cases p
  · exact ha
  · exact hb

/-- A cursor marks as many entries as its unread count says. -/
theorem unreadEntries_length (h : s.journalBounded) (p : Port) : (unreadEntries p s).length = (s.port p).unread := by
  have hle := h.unread_le p
  rw [unreadEntries, List.length_drop]
  omega

/-- A response from a state in which the port's own record has been replaced. -/
theorem respond_setPort (p : Port) (tag : Byte) (a : Answer) (r : PortRec) (s : State) :
    respond p tag a (s.setPort p r) = s.setPort p { r with
      state := .ready, response := some { status := a.status, tag := tag, payload := a.payload }, execTag := none } := by
  rw [respond, setPort_port_self, setPort_setPort]

/-- READ_JOURNAL takes the first four unread entries, and the cursor moves past as many as there were. -/
theorem readJournal_returns (h : s.takes p) (hj : s.journalBounded) (tag : Byte) :
    exec (.readJournal p tag) s = .next (s.setPort p { s.port p with
      state := .ready, execTag := none, unread := (s.port p).unread - min 4 (s.port p).unread, gap := false
      response := some { status := .ok, tag := tag
                         payload := journalPayload ((unreadEntries p s).take 4) (s.port p).gap
                           ((s.port p).unread - min 4 (s.port p).unread) } }) := by
  have htaken : ((unreadEntries p s).take 4).length = min 4 (s.port p).unread := by
    rw [List.length_take, unreadEntries_length hj]
  refine (next_free h tag rfl).trans ?_
  rw [htaken, respond_setPort]

/-! ### A new entry -/

/-- A ring with room gains the entry at its end. -/
theorem Journal.push_room {j : Journal} (h : j.entries.length < Config.journalSize) (e : Entry) :
    (j.push e).entries = j.entries ++ [e] := by
  rw [Journal.push, if_pos h]

/-- A full ring drops its oldest entry for the new one. -/
theorem Journal.push_full {j : Journal} (h : j.entries.length = Config.journalSize) (e : Entry) :
    (j.push e).entries = j.entries.tail ++ [e] := by
  rw [Journal.push, if_neg (by omega), List.drop_one]

/-- An entry writes each port's cursor, by whether the ring was full before it. -/
theorem journalise_port (k : Kind) (a : Option Subject) (v : Option Nat) (r : Option Reason) (s : State) (p : Port) :
    (journalise k a v r s).port p = (s.port p).entryMade (!(s.journal.entries.length < Config.journalSize : Bool)) := by
  cases p <;> rfl

/-- A cursor that does not mark the oldest entry of a full ring has one unread entry more. -/
theorem entryMade_counts {r : PortRec} (h : r.unread < Config.journalSize) (full : Bool) :
    r.entryMade full = { r with unread := r.unread + 1 } := by
  rw [PortRec.entryMade, if_neg (by simp [Nat.ne_of_lt h]), Nat.min_eq_left h]

/-- A cursor that marks the entry dropped from a full ring keeps its unread count and takes the gap flag. -/
theorem entryMade_gap {r : PortRec} (h : r.unread = Config.journalSize) : r.entryMade true = { r with gap := true } := by
  rw [PortRec.entryMade, if_pos (by simp [h])]

/-- An entry is one more unread at a port that had fewer than the ring's size. -/
theorem journalise_counts (h : (s.port p).unread < Config.journalSize) (k : Kind) (a : Option Subject) (v : Option Nat)
    (r : Option Reason) : (journalise k a v r s).port p = { s.port p with unread := (s.port p).unread + 1 } :=
  (journalise_port ..).trans (entryMade_counts h _)

/-- An entry in a full ring costs a port that has read none of it the oldest one. -/
theorem journalise_gap (hfull : s.journal.entries.length = Config.journalSize) (h : (s.port p).unread = Config.journalSize)
    (k : Kind) (a : Option Subject) (v : Option Nat) (r : Option Reason) :
    (journalise k a v r s).port p = { s.port p with gap := true } := by
  rw [journalise_port, hfull]
  exact entryMade_gap h

/-- Settles O12: the read, the ring with room and full, and a port's cursor by whether it marks the entry dropped. -/
theorem journalCursorsAndRing : Obligations.JournalCursorsAndRing := by
  refine ⟨fun s p tag h hj => readJournal_returns h hj tag, fun s k subj v r hj => ?_⟩
  have hlen : s.journal.entries.length ≤ Config.journalSize := hj.1
  refine ⟨rfl, fun hroom => Journal.push_room (lt_of_le_of_ne hlen hroom) _, fun hfull => Journal.push_full hfull _, fun p => ?_⟩
  have counts (hu : (s.port p).unread < Config.journalSize) :
      ((journalise k subj v r s).port p).unread = (s.port p).unread + 1 ∧
        ((journalise k subj v r s).port p).gap = (s.port p).gap := by
    rw [journalise_counts hu]
    exact ⟨rfl, rfl⟩
  refine ⟨fun hroom => counts ((hj.unread_le p).trans_lt (lt_of_le_of_ne hlen hroom)), fun _ hu => counts hu, fun hfull hu => ?_⟩
  rw [journalise_gap hfull hu]
  exact ⟨hu, rfl⟩

end Sys2Proof.Machine
end

section
/-! SUPPORT. The supply and RESET_N edges: the core as a stop leaves it, the cause that each edge adds, and the moment at which a
reset ends (R152 to R156). -/

namespace Sys2Proof.Machine

variable {s : State}

/-! ### The core as a stop leaves it -/

/-- The core afresh and held, under the given hold domain and pins, with no store write in progress. -/
def State.stopped (s : State) (h : Hold) (u : Supply) : State :=
  State.fresh s.pending { s.store with writing := none } h { u with held := true } s.draws

theorem stopCore_eq (s : State) : stopCore s = s.stopped s.hold s.sup := rfl

/-- A record of POWER_ON takes no further cause. -/
theorem addCause_powerOn (dip pin : Bool) : addCause false dip pin .powerOn = .powerOn := rfl

/-- A cause is added to those of a held warm restart. -/
theorem addCause_warm (dip pin d p : Bool) : addCause false dip pin (.warm d p) = .warm (d || dip) (p || pin) := rfl

/-- A cause at a running core stops it and is the only one of its record. -/
theorem holdFor_running (h : s.sup.held = false) (dip pin : Bool) :
    holdFor dip pin s = s.stopped { s.hold with cause := .warm dip pin } s.sup := by
  simp only [holdFor, addCause, stopCore_eq, h, Bool.not_false, if_true, Bool.false_eq_true, if_false]
  rfl

/-- A cause at a held core changes its record alone. -/
theorem holdFor_held (h : s.sup.held = true) (dip pin : Bool) :
    holdFor dip pin s = { s with hold := { s.hold with cause := addCause false dip pin s.hold.cause } } := by
  simp only [holdFor, h, Bool.not_true, if_true]

/-! ### The edges of the supplies -/

theorem vstbyRisen_down (h : s.sup.vstby = false) : vstbyRisen s = s.stopped .fresh { s.sup with
    vstby := true, startDelay := if s.sup.vcore = true then some 64 else none } :=
  if_neg (Bool.eq_false_iff.mp h)

theorem vstbyFallen_up (h : s.sup.vstby = true) :
    vstbyFallen s = s.stopped .fresh { s.sup with vstby := false, startDelay := none } :=
  if_pos h

theorem vcoreFallen_up (h : s.sup.vcore = true) : vcoreFallen s = { holdFor true false s with
    sup := { (holdFor true false s).sup with vcore := false, startDelay := none } } :=
  if_pos h

theorem vcoreFallen_running (hv : s.sup.vcore = true) (hh : s.sup.held = false) : vcoreFallen s =
    s.stopped { s.hold with cause := .warm true false } { s.sup with vcore := false, startDelay := none } := by
  rw [vcoreFallen_up hv, holdFor_running hh]
  rfl

theorem vcoreFallen_held (hv : s.sup.vcore = true) (hh : s.sup.held = true) : vcoreFallen s = { s with
    hold := { s.hold with cause := addCause false true false s.hold.cause }
    sup := { s.sup with vcore := false, startDelay := none } } := by
  rw [vcoreFallen_up hv, holdFor_held hh]

theorem vcoreRecovered_down (hc : s.sup.vcore = false) (hv : s.sup.vstby = true) :
    vcoreRecovered s = { s with sup := { s.sup with vcore := true, startDelay := some 64 } } := by
  simp only [vcoreRecovered, hc, hv, Config.startDelayMs, Bool.false_eq_true, if_false, if_true]

/-! ### The edges of RESET_N -/

theorem resetAsserted_high (h : s.sup.resetAsserted = false) : resetAsserted s = { holdFor false true s with
    sup := { (holdFor false true s).sup with resetAsserted := true } } :=
  if_neg (Bool.eq_false_iff.mp h)

theorem resetAsserted_running (hr : s.sup.resetAsserted = false) (hh : s.sup.held = false) : resetAsserted s =
    s.stopped { s.hold with cause := .warm false true } { s.sup with resetAsserted := true } := by
  rw [resetAsserted_high hr, holdFor_running hh]
  rfl

theorem resetAsserted_held (hr : s.sup.resetAsserted = false) (hh : s.sup.held = true) : resetAsserted s = { s with
    hold := { s.hold with cause := addCause false false true s.hold.cause }
    sup := { s.sup with resetAsserted := true } } := by
  rw [resetAsserted_high hr, holdFor_held hh]

theorem resetDeasserted_low (h : s.sup.resetAsserted = true) :
    resetDeasserted s = endResetIfDue { s with sup := { s.sup with resetAsserted := false } } :=
  if_pos h

/-- Settles O52: VSTBY takes the hold domain with it, and the other two stops add their cause, to a new record at a running core
and to the standing one at a held core. -/
theorem supplyEdgesStopTheCore : Obligations.SupplyEdgesStopTheCore := by
  intro s
  refine ⟨fun hv => congrArg Host.Outcome.next (vstbyRisen_down hv), fun hv => congrArg Host.Outcome.next (vstbyFallen_up hv),
    fun hv hh => congrArg Host.Outcome.next (vcoreFallen_running hv hh), fun hv hh => ?_,
    fun hc hv => congrArg Host.Outcome.next (vcoreRecovered_down hc hv),
    fun hr hh => congrArg Host.Outcome.next (resetAsserted_running hr hh), fun hr hh => ?_⟩
  · refine (congrArg Host.Outcome.next (vcoreFallen_held hv hh)).trans ?_
    cases s.hold.cause with
    | powerOn => rw [addCause_powerOn]
    | warm dip pin => rw [addCause_warm, Bool.or_true, Bool.or_false]
  · refine (congrArg Host.Outcome.next (resetAsserted_held hr hh)).trans ?_
    cases s.hold.cause with
    | powerOn => rw [addCause_powerOn]
    | warm dip pin => rw [addCause_warm, Bool.or_false, Bool.or_true]

/-! ### The start delay and the end of a reset -/

theorem startDelayExpired_idle (h : s.sup.startDelay = none) : startDelayExpired s = s := by
  rw [startDelayExpired, h, Option.isSome_none, if_neg Bool.false_ne_true]

theorem startDelayExpired_running (h : s.sup.startDelay.isSome = true) :
    startDelayExpired s = endResetIfDue { s with sup := { s.sup with startDelay := none } } :=
  if_pos h

/-- The four conditions under which a held core's reset ends (R155). -/
theorem resetCanEnd_iff (u : Supply) : u.resetCanEnd = true ↔
    u.held = true ∧ u.vstby = true ∧ u.vcore = true ∧ u.resetAsserted = false ∧ u.startDelay = none := by
  simp [Supply.resetCanEnd, and_assoc]

theorem endResetIfDue_waits (h : ¬s.sup.resetCanEnd = true) : endResetIfDue s = s := if_neg h

/-- Either start of the core releases it and writes no other pin. -/
theorem endReset_sup (s : State) : (endReset s).sup = { s.sup with held := false } := by
  unfold endReset
  split
  · rw [powerOnStart_eq, beginService_eq]
    rfl
  · exact (warmStart_setUp s).sup.trans (warmLeaks_units s).2.1

theorem endResetIfDue_releases (h : s.sup.resetCanEnd = true) : (endResetIfDue s).sup = { s.sup with held := false } := by
  rw [endResetIfDue_due h, endReset_sup]

/-- Settles O53: each of the two events changes its own pin or timer, and the reset then ends or waits by the four conditions. -/
theorem resetEndsAtItsFirstMoment : Obligations.ResetEndsAtItsFirstMoment := by
  intro s hheld hv
  refine ⟨fun hd hr => congrArg Host.Outcome.next ?_, fun hd hr hc => ⟨_, rfl, ?_⟩,
    fun hd => congrArg Host.Outcome.next (startDelayExpired_idle hd),
    fun hr hwait => congrArg Host.Outcome.next ?_, fun hr hd hc => ⟨_, rfl, ?_⟩⟩
  · rw [startDelayExpired_running hd, endResetIfDue_waits]
    simp [resetCanEnd_iff, hr]
  · rw [startDelayExpired_running hd, endResetIfDue_releases]
    exact (resetCanEnd_iff _).mpr ⟨hheld, hv, hc, hr, rfl⟩
  · rw [resetDeasserted_low hr, endResetIfDue_waits]
    rcases hwait with hd | hc
    · simp [resetCanEnd_iff, Option.isSome_iff_ne_none.mp hd]
    · simp [resetCanEnd_iff, hc]
  · rw [resetDeasserted_low hr, endResetIfDue_releases]
    exact (resetCanEnd_iff _).mpr ⟨hheld, hv, hc, rfl, hd⟩

/-- One run over the edges that meets their hypotheses: a dip at a running core, RESET_N at a held one, the recovery, an expiry that
RESET_N outlasts, and the deassertion that ends the reset; and a rack without VSTBY. -/
theorem edges_from_reset :
    let dipped := vcoreFallen State.reset
    let pinned := resetAsserted dipped
    let recovered := vcoreRecovered pinned
    let waiting := startDelayExpired recovered
    dipped.sup.held = true ∧ dipped.sup.vcore = false ∧ dipped.hold.cause = .warm true false ∧
      pinned.hold.cause = .warm true true ∧ recovered.sup.startDelay = some 64 ∧
      waiting.sup = { State.reset.sup with resetAsserted := true, held := true } ∧
      (resetDeasserted waiting).sup = State.reset.sup ∧ (vstbyFallen State.reset).sup.vstby = false := by
  refine ⟨rfl, rfl, rfl, rfl, rfl, rfl, ?_, rfl⟩
  rw [resetDeasserted_low rfl, endResetIfDue_releases rfl]
  rfl

end Sys2Proof.Machine
end
